-- ==== Sys2Proof/Word.lean ====
section
/-! DEFINITION. The word types of the block and the two plain records every later file uses: the display
buffer's four slots and the four input levels of one clock edge. Widths: `00_scope.md` R6, `10_state.md` R10. -/

namespace Sys2Proof

/-- A byte of the model's operation code (log entry 5); the block itself has no byte storage. -/
abbrev Byte := BitVec 8

/-- A Segment Pattern, format SEGPAT: bit 7 = DP, 6 = A, 5 = B, 4 = C, 3 = D, 2 = E, 1 = F, 0 = G
(`30_encoding.md` R45). -/
abbrev SegPat := BitVec 8

/-- `VALUE`'s 16-bit two's complement code (`10_state.md` R11). -/
abbrev Value := BitVec 16

/-- The Digit Cursor, two bits (`10_state.md` R13). -/
abbrev Cursor := BitVec 2

/-- The Inactivity Countdown, eight bits, unsigned (`10_state.md` R14). -/
abbrev Countdown := BitVec 8

/-- A common-line word, format COMSEL: bit `i` is digit position `i` (`30_encoding.md` R48). -/
abbrev ComSel := BitVec 4

/-- A digit code, format BCD (`30_encoding.md` R47). -/
abbrev Bcd := BitVec 4

/-- Four Segment Patterns, slot 0 (most significant position) to slot 3 (`10_state.md` R12, `20_memory.md` R31). -/
structure Buf where
  p0 : SegPat
  p1 : SegPat
  p2 : SegPat
  p3 : SegPat
  deriving DecidableEq, Repr, Inhabited

/-- The four input levels sampled at one edge: `rst`, `tm` (`tick_mux_a`), `ts` (`tick_sec_a`) and `bn`
(`btn_n_a`, 0 = pressed) (`60_exceptions.md` R110). -/
structure Sample where
  rst : Bool
  tm : Bool
  ts : Bool
  bn : Bool
  deriving DecidableEq, Repr, Inhabited

/-- A name for the further course of the environment, from which the levels of coming edges are drawn once none are given: plain
data with no meaning of its own, neither a level nor a count (log entry 1). -/
structure Source where
  name : Nat
  deriving DecidableEq, Repr, Inhabited

end Sys2Proof
end

