-- ==== Sys2Proof/Config.lean ====
section
/-! DEFINITION. The parameters of the block (`00_scope.md` R6): fixed constants, the configuration record with the
spec's defaults, and the free values. A parameter is never state (`10_state.md` R22, R26). -/

namespace Sys2Proof

/-- `VALUE_MAX`, fixed (`00_scope.md` R6). -/
def valueMax : Int := 9999

/-- `MINUS`: only the middle segment G, bit 0 (`00_scope.md` R6, `40_segment_encoder.md` R63). -/
def minus : SegPat := 0x01

/-- `BLANK`: all off (`00_scope.md` R6, `40_segment_encoder.md` R64). -/
def blank : SegPat := 0x00

/-- The parameters and OPEN values of `00_scope.md` R6 that a rule reads. `F_MUX`, `F_SEC` and `F_CLK` are read by no rule
and stand in no field (log entry 15). Which values are legal: `Config.Legal` in WellFormed.lean. -/
structure Config where
  /-- `VALUE_MIN`: -999 (full revision) or 0 (simple revision). -/
  valueMin : Int
  /-- `VALUE_INIT`, within [`VALUE_MIN`, 9999]. -/
  valueInit : Int
  /-- `TIMEOUT`, 1 to 255. -/
  timeout : Countdown
  /-- `SEG_TABLE`, ten patterns addressed by the decimal digit. -/
  segTable : Vector SegPat 10
  /-- `SEG_INVERT` (OPEN). -/
  segInvert : Bool
  /-- `COM_INVERT` (OPEN). -/
  comInvert : Bool
  deriving DecidableEq, Repr

/-- The defaults of `00_scope.md` R6. -/
def Config.default : Config where
  valueMin := -999
  valueInit := 0
  timeout := 10
  segTable := #v[0x7E, 0x30, 0x6D, 0x79, 0x33, 0x5B, 0x5F, 0x70, 0x7F, 0x7B]
  segInvert := false
  comInvert := false

/-- The configuration `exec`, `step` and `State.reset` run with: the spec's defaults (DESIGN CHOICE, unsafe, log entry 4).
Every definition below those three takes the configuration as an argument. -/
def Config.cfg : Config := Config.default

/-- FREE VALUE (safe, log entry 1): the levels a source presents at the coming edge. "A model takes the sampled bits as free inputs
of STEP" (`60_exceptions.md` R124). No body: nothing can evaluate it. -/
opaque Config.freeSample : Source → Sample

/-- FREE VALUE (safe, log entry 1): the source once those levels are used up. No body: that a source returns, and that it does not,
are both beyond proof, so the sources along a run count nothing. -/
opaque Config.nextSource : Source → Source

/-- FREE VALUE (DESIGN CHOICE, safe, log entry 8): what DB_COUNT performed on its own writes when `COUNTDOWN = 0`, an
operand `43_debounce_timeout.md` R81 excludes. -/
opaque Config.borrowedCountdown : Countdown

/-- FREE VALUE (DESIGN CHOICE, safe, log entry 9): what COUNT_INC performed on its own writes when `VALUE = 0x7FFF`, where
`code16(signed16(VALUE) + 1)` does not exist (`44_counter_clock.md` R87 excludes the operand). -/
opaque Config.overflowedValue : Value

end Sys2Proof
end

