-- ==== Sys2Proof/Syntax.lean ====
section
/-! DEFINITION. The operations of LED4X7SEG-OPS as syntax: one constructor per row of spec/opcode_table.json. The block
fetches no instructions; "instruction" is read as "operation" (`00_scope.md` R1, R2; decision D28). -/

namespace Sys2Proof

/-- One constructor per row of spec/opcode_table.json. A constructor's arguments are the bits its row's selector word
leaves open ("any"): they carry no meaning of their own (log entry 21). -/
inductive Instr where
  /-- MUX_TICK, format REQ `1sd`: `pendSec` and `dirty` are the bits `s` and `d` (R76). -/
  | muxTick (pendSec dirty : Bool)
  /-- SEC_TICK, format REQ `01d` (R89). -/
  | secTick (dirty : Bool)
  /-- RECOMPUTE, format REQ `001` (R69). -/
  | recompute
  /-- IDLE, format REQ `000` (R93). -/
  | idle
  /-- DB_REARM, format DBSEL `0z` (R80). -/
  | dbRearm (z : Bool)
  /-- DB_COUNT, format DBSEL `10` (R81). -/
  | dbCount
  /-- DB_HOLD0, format DBSEL `11` (R82). -/
  | dbHold0
  /-- MUX_DRIVE, format GATE `1` (R73). -/
  | muxDrive
  /-- MUX_BLANK, format GATE `0` (R74). -/
  | muxBlank
  /-- RENDER_POS, format SIGN `0` (R67). -/
  | renderPos
  /-- RENDER_NEG, format SIGN `1` (R68). -/
  | renderNeg
  /-- COUNT_INC, format WRAP `0` (R87). -/
  | countInc
  /-- COUNT_WRAP, format WRAP `1` (R88). -/
  | countWrap
  /-- ENC_0, format BCD `0000` (R62). -/
  | enc0
  /-- ENC_1, format BCD `0001` (R62). -/
  | enc1
  /-- ENC_2, format BCD `0010` (R62). -/
  | enc2
  /-- ENC_3, format BCD `0011` (R62). -/
  | enc3
  /-- ENC_4, format BCD `0100` (R62). -/
  | enc4
  /-- ENC_5, format BCD `0101` (R62). -/
  | enc5
  /-- ENC_6, format BCD `0110` (R62). -/
  | enc6
  /-- ENC_7, format BCD `0111` (R62). -/
  | enc7
  /-- ENC_8, format BCD `1000` (R62). -/
  | enc8
  /-- ENC_9, format BCD `1001` (R62). -/
  | enc9
  /-- ENC_RSVD_A, format BCD `101x`: `d` is the whole code, 10 or 11 (R65). -/
  | encRsvdA (d : Bcd)
  /-- ENC_RSVD_B, format BCD `11xx`: `d` is the whole code, 12 to 15 (R65). -/
  | encRsvdB (d : Bcd)
  /-- ENC_MINUS, no selector word (R63). -/
  | encMinus
  /-- ENC_BLANK, no selector word (R64). -/
  | encBlank
  /-- CURSOR_ADV, no selector word: part of every MUX_TICK (R75). -/
  | cursorAdv
  /-- DEBOUNCE, no selector word: first part of every MUX_TICK (R83). -/
  | debounce
  /-- CAPTURE_MUX, no selector word: performed at every edge with `rst = 0` (R101). -/
  | captureMux
  /-- CAPTURE_SEC, no selector word: performed at every edge with `rst = 0` (R102). -/
  | captureSec
  /-- BTN_SYNC, no selector word: performed at every edge with `rst = 0` (R103). -/
  | btnSync
  /-- STEP, no selector word: the complete function of one clock edge (R110). -/
  | step
  /-- RESET, format RST `1` (R125). -/
  | reset
  deriving DecidableEq, Repr

end Sys2Proof
end

