-- ==== Sys2Proof/WellFormed.lean ====
section
/-! DEFINITION. The static checks: which operation terms exist (a reserved digit code carries a reserved code) and which
parameter values are legal ("the only inputs a model may refuse are illegal parameter values", `60_exceptions.md` R97). -/

namespace Sys2Proof

/-- An operation term is well formed when its open bits fit its row's pattern: ENC_RSVD_A's code matches `101x`, ENC_RSVD_B's
matches `11xx` (spec/opcode_table.json; `40_segment_encoder.md` R65). Every other row's arguments are free bits. -/
def Instr.wf : Instr → Bool
  | .muxTick _ _ => true
  | .secTick _ => true
  | .recompute => true
  | .idle => true
  | .dbRearm _ => true
  | .dbCount => true
  | .dbHold0 => true
  | .muxDrive => true
  | .muxBlank => true
  | .renderPos => true
  | .renderNeg => true
  | .countInc => true
  | .countWrap => true
  | .enc0 => true
  | .enc1 => true
  | .enc2 => true
  | .enc3 => true
  | .enc4 => true
  | .enc5 => true
  | .enc6 => true
  | .enc7 => true
  | .enc8 => true
  | .enc9 => true
  | .encRsvdA d => d &&& 0b1110 == 0b1010
  | .encRsvdB d => d &&& 0b1100 == 0b1100
  | .encMinus => true
  | .encBlank => true
  | .cursorAdv => true
  | .debounce => true
  | .captureMux => true
  | .captureSec => true
  | .btnSync => true
  | .step => true
  | .reset => true

/-- A legal segment table (`00_scope.md` R6, `40_segment_encoder.md` R66 items 1 to 3): ten distinct patterns, none equal to
`MINUS` or `BLANK`, the decimal point off in each (the last clause: log entry 12). -/
abbrev Config.LegalTable (c : Config) : Prop :=
  c.segTable.toList.Nodup ∧
    ∀ p ∈ c.segTable.toList, p ≠ minus ∧ p ≠ blank ∧ p.getLsbD 7 = false

/-- The legal parameter values of `00_scope.md` R6. -/
abbrev Config.Legal (c : Config) : Prop :=
  (c.valueMin = -999 ∨ c.valueMin = 0) ∧
    (c.valueMin ≤ c.valueInit ∧ c.valueInit ≤ valueMax) ∧
    c.timeout ≠ 0 ∧ c.LegalTable

end Sys2Proof
end

