-- ==== Sys2Proof/Decode.lean ====
section
/-! DEFINITION. Operation decode (`30_encoding.md` R50 to R54, R47, R49): one decoder per selector format of the table, the
decoder of the model's two-byte operation code over them, and the encoder. The table gives each row a selector word of one
to four bits in one of eight formats; the same bits mean different rows in different formats. The model's operation code
is therefore two bytes: the selector word, then the format's tag (DESIGN CHOICE, log entry 5). Format REQ has tag 0. -/

namespace Sys2Proof

/-- The formats of spec/opcode_table.json. `none` marks the rows no selector word chooses. -/
inductive Format where
  | req
  | dbsel
  | gate
  | sign
  | wrap
  | bcd
  | rst
  | none
  deriving DecidableEq, Repr

/-- Why a word is rejected, by name. -/
inductive DecodeError where
  /-- Fewer than two bytes are left. -/
  | truncated
  /-- The second byte is no format's tag. -/
  | unknownFormat
  /-- The selector byte has a bit set above the format's width. -/
  | wideSelector
  /-- Format RST with `rst = 0`: no reset is requested, and no row of the table has this word (log entry 18). -/
  | noResetRequested
  deriving DecidableEq, Repr

/-- The tag byte of a format (log entry 5). -/
def Format.tag : Format → Byte
  | .req => 0
  | .dbsel => 1
  | .gate => 2
  | .sign => 3
  | .wrap => 4
  | .bcd => 5
  | .rst => 6
  | .none => 7

/-- The format a tag byte names. -/
def Format.ofTag (t : Byte) : Option Format :=
  match t.toNat with
  | 0 => some .req
  | 1 => some .dbsel
  | 2 => some .gate
  | 3 => some .sign
  | 4 => some .wrap
  | 5 => some .bcd
  | 6 => some .rst
  | 7 => some .none
  | _ => Option.none

/-- The width of a format's selector word (the table's "width"). For the rows without a word the model numbers them by
three bits (log entry 5). -/
def Format.width : Format → Nat
  | .req => 3
  | .dbsel => 2
  | .gate => 1
  | .sign => 1
  | .wrap => 1
  | .bcd => 4
  | .rst => 1
  | .none => 3

/-- Format REQ, the top-level decode (`30_encoding.md` R50): bit 2 `PEND_MUX`, bit 1 `PEND_SEC`, bit 0 `DIRTY`. -/
def decodeReq (w : BitVec 3) : Instr :=
  if w.getLsbD 2 then .muxTick (w.getLsbD 1) (w.getLsbD 0)
  else if w.getLsbD 1 then .secTick (w.getLsbD 0)
  else if w.getLsbD 0 then .recompute
  else .idle

/-- Format DBSEL (`30_encoding.md` R51): bit 1 is `b`, bit 0 is `z`. -/
def decodeDbsel (w : BitVec 2) : Instr :=
  if w.getLsbD 1 then (if w.getLsbD 0 then .dbHold0 else .dbCount) else .dbRearm (w.getLsbD 0)

/-- Format GATE (`30_encoding.md` R52). -/
def decodeGate (g : BitVec 1) : Instr :=
  if g.getLsbD 0 then .muxDrive else .muxBlank

/-- Format SIGN (`30_encoding.md` R53). -/
def decodeSign (n : BitVec 1) : Instr :=
  if n.getLsbD 0 then .renderNeg else .renderPos

/-- Format WRAP (`30_encoding.md` R54). -/
def decodeWrap (w : BitVec 1) : Instr :=
  if w.getLsbD 0 then .countWrap else .countInc

/-- Format BCD (`30_encoding.md` R47, R57; `40_segment_encoder.md` R62, R65): the digits 0 to 9 and the two reserved rows. -/
def decodeBcd (d : Bcd) : Instr :=
  match d.toNat with
  | 0 => .enc0
  | 1 => .enc1
  | 2 => .enc2
  | 3 => .enc3
  | 4 => .enc4
  | 5 => .enc5
  | 6 => .enc6
  | 7 => .enc7
  | 8 => .enc8
  | 9 => .enc9
  | 10 => .encRsvdA d
  | 11 => .encRsvdA d
  | _ => .encRsvdB d

/-- Format RST (`30_encoding.md` R49): 1 requests RESET. -/
def decodeRst (w : BitVec 1) : Except DecodeError Instr :=
  if w.getLsbD 0 then .ok .reset else .error .noResetRequested

/-- The rows without a selector word, in the table's order (the numbering is the model's, log entry 5). -/
def decodeNone (k : BitVec 3) : Instr :=
  match k.toNat with
  | 0 => .encMinus
  | 1 => .encBlank
  | 2 => .cursorAdv
  | 3 => .debounce
  | 4 => .captureMux
  | 5 => .captureSec
  | 6 => .btnSync
  | _ => .step

/-- The operation a selector byte names in a format; a bit above the format's width is rejected. -/
def decodeSelector (f : Format) (w : Byte) : Except DecodeError Instr :=
  if 2 ^ f.width ≤ w.toNat then .error .wideSelector
  else
    match f with
    | .req => .ok (decodeReq (w.setWidth 3))
    | .dbsel => .ok (decodeDbsel (w.setWidth 2))
    | .gate => .ok (decodeGate (w.setWidth 1))
    | .sign => .ok (decodeSign (w.setWidth 1))
    | .wrap => .ok (decodeWrap (w.setWidth 1))
    | .bcd => .ok (decodeBcd (w.setWidth 4))
    | .rst => decodeRst (w.setWidth 1)
    | .none => .ok (decodeNone (w.setWidth 3))

/-- Decode one operation code from the front of a byte list; total, with the rest of the list. -/
def decode : List Byte → Except DecodeError (Instr × List Byte)
  | w :: t :: rest =>
    match Format.ofTag t with
    | some f =>
      match decodeSelector f w with
      | .ok i => .ok (i, rest)
      | .error e => .error e
    | Option.none => .error .unknownFormat
  | [_] => .error .truncated
  | [] => .error .truncated

/-- The format column of spec/opcode_table.json. -/
def Instr.format : Instr → Format
  | .muxTick _ _ => .req
  | .secTick _ => .req
  | .recompute => .req
  | .idle => .req
  | .dbRearm _ => .dbsel
  | .dbCount => .dbsel
  | .dbHold0 => .dbsel
  | .muxDrive => .gate
  | .muxBlank => .gate
  | .renderPos => .sign
  | .renderNeg => .sign
  | .countInc => .wrap
  | .countWrap => .wrap
  | .enc0 => .bcd
  | .enc1 => .bcd
  | .enc2 => .bcd
  | .enc3 => .bcd
  | .enc4 => .bcd
  | .enc5 => .bcd
  | .enc6 => .bcd
  | .enc7 => .bcd
  | .enc8 => .bcd
  | .enc9 => .bcd
  | .encRsvdA _ => .bcd
  | .encRsvdB _ => .bcd
  | .encMinus => .none
  | .encBlank => .none
  | .cursorAdv => .none
  | .debounce => .none
  | .captureMux => .none
  | .captureSec => .none
  | .btnSync => .none
  | .step => .none
  | .reset => .rst

/-- The encoding column of spec/opcode_table.json, the row's open bits filled in, zero-extended to a byte. -/
def Instr.selector : Instr → Byte
  | .muxTick s d => (0b1#1 ++ BitVec.ofBool s ++ BitVec.ofBool d).setWidth 8
  | .secTick d => (0b01#2 ++ BitVec.ofBool d).setWidth 8
  | .recompute => 0b001
  | .idle => 0b000
  | .dbRearm z => (0b0#1 ++ BitVec.ofBool z).setWidth 8
  | .dbCount => 0b10
  | .dbHold0 => 0b11
  | .muxDrive => 0b1
  | .muxBlank => 0b0
  | .renderPos => 0b0
  | .renderNeg => 0b1
  | .countInc => 0b0
  | .countWrap => 0b1
  | .enc0 => 0b0000
  | .enc1 => 0b0001
  | .enc2 => 0b0010
  | .enc3 => 0b0011
  | .enc4 => 0b0100
  | .enc5 => 0b0101
  | .enc6 => 0b0110
  | .enc7 => 0b0111
  | .enc8 => 0b1000
  | .enc9 => 0b1001
  | .encRsvdA d => d.setWidth 8
  | .encRsvdB d => d.setWidth 8
  | .encMinus => 0
  | .encBlank => 1
  | .cursorAdv => 2
  | .debounce => 3
  | .captureMux => 4
  | .captureSec => 5
  | .btnSync => 6
  | .step => 7
  | .reset => 0b1

/-- The operation code of an operation: selector word, then format tag (log entry 5). -/
def encode (i : Instr) : List Byte :=
  [i.selector, i.format.tag]

/-- What the decoder reads from an operation code given as one number, bit 0 the least significant bit of the first byte.
A table word has no tag; its second byte is 0, the tag of format REQ, so it is read as a request word (log entry 5). -/
def decodeTableWord (nbits w : Nat) : Option Instr :=
  let x := w % 2 ^ nbits
  if 2 ^ 16 ≤ x then Option.none
  else
    match decode [BitVec.ofNat 8 x, BitVec.ofNat 8 (x / 256)] with
    | .ok (i, _) => some i
    | .error _ => Option.none

end Sys2Proof
end

