-- ==== Sys2Proof/Machine/Operands.lean ====
section
/-! DEFINITION. Operand assembly: the notation of `00_scope.md` R8, digit extraction and magnitude (`30_encoding.md` R55,
R56), the selector words of R50 to R54, and the segments of a pattern (R45, R46). Pure functions, no state. -/

namespace Sys2Proof.Machine

/-- `signed16` (`00_scope.md` R8). -/
def signed16 (w : Value) : Int := w.toInt

/-- `code16` (`00_scope.md` R8): the two's complement code of an integer in [-32768, 32767]. -/
def code16 (i : Int) : Value := BitVec.ofInt 16 i

/-- `onehot4` (`00_scope.md` R8, `30_encoding.md` R48). -/
def onehot4 (c : Cursor) : ComSel :=
  match c.toNat with
  | 0 => 0b0001
  | 1 => 0b0010
  | 2 => 0b0100
  | _ => 0b1000

/-- `digit(m, k) = (m div 10^k) mod 10` (`30_encoding.md` R55). -/
def digit (m k : Nat) : Nat := m / 10 ^ k % 10

/-- A decimal digit in format BCD (`30_encoding.md` R47). -/
def bcd (d : Nat) : Bcd := BitVec.ofNat 4 d

/-- `mag(v) = (~v + 1) mod 2^16`, read as unsigned (`30_encoding.md` R56). -/
def mag (v : Value) : Value := ~~~v + 1

/-- The request word `REQ = {PEND_MUX, PEND_SEC, DIRTY}` (`30_encoding.md` R50). -/
def reqWord (pendMux pendSec dirty : Bool) : BitVec 3 :=
  BitVec.ofBool pendMux ++ BitVec.ofBool pendSec ++ BitVec.ofBool dirty

/-- The debounce selector `{b, z}` with `z = (COUNTDOWN = 0)` (`30_encoding.md` R51). -/
def dbselWord (b : Bool) (countdown : Countdown) : BitVec 2 :=
  BitVec.ofBool b ++ BitVec.ofBool (countdown == 0)

/-- The output gate `g = (c' != 0)` (`30_encoding.md` R52). -/
def gateWord (c' : Countdown) : BitVec 1 := BitVec.ofBool (c' != 0)

/-- The sign selector `n = VALUE[15]` (`30_encoding.md` R53). -/
def signWord (v : Value) : BitVec 1 := BitVec.ofBool (v.getLsbD 15)

/-- The wrap selector `w = (signed16(VALUE) + 1 > 9999)`, the sum a mathematical integer (`30_encoding.md` R54). -/
def wrapWord (v : Value) : BitVec 1 := BitVec.ofBool (decide (signed16 v + 1 > valueMax))

/-- The segments of a digit, by letter (`30_encoding.md` R45; the places of R46: A top, B upper right, C lower right,
D bottom, E lower left, F upper left, G middle, DP the point). -/
inductive Segment where
  | dp
  | a
  | b
  | c
  | d
  | e
  | f
  | g
  deriving DecidableEq, Repr

/-- The bit of a Segment Pattern that is a segment (`30_encoding.md` R45). -/
def Segment.bit : Segment → Nat
  | .dp => 7
  | .a => 6
  | .b => 5
  | .c => 4
  | .d => 3
  | .e => 2
  | .f => 1
  | .g => 0

/-- A segment is lit in a pattern when its bit is 1 (`30_encoding.md` R45). -/
def lit (p : SegPat) (x : Segment) : Bool := p.getLsbD x.bit

/-- The pattern that lights exactly the listed segments. -/
def patternOf : List Segment → SegPat
  | [] => 0
  | x :: xs => (1#8 <<< x.bit) ||| patternOf xs

end Sys2Proof.Machine
end

