-- ==== Sys2Proof/Machine/Render.lean ====
section
/-! DEFINITION. The combinational functions of the segment encoder and of the display buffer update
(`40_segment_encoder.md` R62 to R66, `41_display_buffer.md` R67, R68, R70, R71), with the configuration as an argument. -/

namespace Sys2Proof.Machine

/-- ENC_DIGIT (`40_segment_encoder.md` R62, R65): the table's entry for 0 to 9, `BLANK` for the codes 10 to 15. -/
def encDigit (c : Config) (d : Bcd) : SegPat :=
  if h : d.toNat < 10 then c.segTable[d.toNat] else blank

/-- ENC_MINUS (`40_segment_encoder.md` R63). -/
def encMinusPattern : SegPat := minus

/-- ENC_BLANK (`40_segment_encoder.md` R64). -/
def encBlankPattern : SegPat := blank

/-- RENDER_POS (`41_display_buffer.md` R67): the word is taken as unsigned; four digits, most significant in slot 0. -/
def renderPos (c : Config) (v : Value) : Buf :=
  let m := v.toNat
  { p0 := encDigit c (bcd (m / 10 / 10 / 10 % 10))
    p1 := encDigit c (bcd (m / 10 / 10 % 10))
    p2 := encDigit c (bcd (m / 10 % 10))
    p3 := encDigit c (bcd (m % 10)) }

/-- RENDER_NEG (`41_display_buffer.md` R68): the minus pattern, then three digits of the magnitude. -/
def renderNeg (c : Config) (v : Value) : Buf :=
  let m := (mag v).toNat
  { p0 := encMinusPattern
    p1 := encDigit c (bcd (m / 10 / 10 % 10))
    p2 := encDigit c (bcd (m / 10 % 10))
    p3 := encDigit c (bcd (m % 10)) }

/-- `Render`, total on all 16-bit words (`41_display_buffer.md` R70). -/
def render (c : Config) (v : Value) : Buf :=
  if v.getLsbD 15 then renderNeg c v else renderPos c v

/-- `dec(p)`: the digit whose table entry is `p` (`41_display_buffer.md` R71); no value where there is none. -/
def dec (c : Config) (p : SegPat) : Option Nat :=
  (List.range 10).find? fun d => encDigit c (bcd d) == p

/-- `Unrender` (`41_display_buffer.md` R71): the integer a buffer shows; no value on a buffer outside its domain. -/
def unrender (c : Config) (b : Buf) : Option Int := do
  let d1 ← dec c b.p1
  let d2 ← dec c b.p2
  let d3 ← dec c b.p3
  let low : Int := 100 * d1 + 10 * d2 + d3
  if b.p0 = minus then
    return -low
  else
    let d0 ← dec c b.p0
    return 1000 * d0 + low

end Sys2Proof.Machine
end

