-- ==== Sys2Proof/Machine/State.lean ====
section
/-! DEFINITION. The state of the block (`10_state.md` R10: 81 bits, "Nothing else is state"), the model's own bench fields
beside it, the stop reasons, and the reset state (`10_state.md` R25). -/

namespace Sys2Proof.Machine

/-- The nine state elements both levels of description share (`10_state.md` R11 to R18; `60_exceptions.md` R112). -/
structure Regs where
  /-- `VALUE`, the Displayed Value (R11). -/
  value : Value
  /-- `BUF[0..3]`, the Display Buffer (R12). -/
  buf : Buf
  /-- `CURSOR`, the Digit Cursor: the slot the next MUX_TICK shows (R13). -/
  cursor : Cursor
  /-- `COUNTDOWN`, the Inactivity Countdown (R14). -/
  countdown : Countdown
  /-- `SEG_OUT`, the segment bus register (R15). -/
  segOut : SegPat
  /-- `COM_OUT`, the common-line register (R16). -/
  comOut : ComSel
  /-- `PEND_MUX` (R17). -/
  pendMux : Bool
  /-- `PEND_SEC` (R17). -/
  pendSec : Bool
  /-- `DIRTY` (R18). -/
  dirty : Bool
  deriving DecidableEq, Repr

/-- The synchronizer flip-flops (`10_state.md` R19): `S1` is the newest sample. -/
structure Sync where
  muxS1 : Bool
  muxS2 : Bool
  muxS3 : Bool
  secS1 : Bool
  secS2 : Bool
  secS3 : Bool
  btnS1 : Bool
  btnS2 : Bool
  deriving DecidableEq, Repr

/-- The state record of the block: its complete state as the spec counts it (`10_state.md` R10), and nothing of what R26 says is
not state. STEP as a function of this record and the sampled levels is `Block.edge`. -/
structure Block where
  regs : Regs
  sync : Sync
  deriving DecidableEq, Repr

/-- What stands OUTSIDE the block: the environment's levels still to come, and what a bench sees of a combinational operation.
None of it is the block's state (`10_state.md` R26). The host's `step` takes no argument for the levels that R26 makes inputs of
the step function, so the machine the host runs carries their source beside the block (log entry 1); the block reads nothing
here but the levels of the edge at hand. -/
structure Bench where
  /-- The input levels the environment presents at the next edges, oldest first (log entry 1). That they stand in the host's
  `State` at all is a departure from the letter of `10_state.md` R26 (DESIGN CHOICE, safe, log entry 23). -/
  inputs : List Sample
  /-- Where the levels come from when `inputs` is empty: a name for the environment's further course. It is no level, and it counts
  neither edges nor time (log entry 1). -/
  source : Source
  /-- The result of the last encoder operation performed on its own (log entry 3). -/
  encOut : SegPat
  /-- The result of the last RENDER_POS or RENDER_NEG performed on its own (log entry 3). -/
  rendOut : Buf
  deriving DecidableEq, Repr

/-- The machine the host runs: the block's state record (`10_state.md` R10, R26), unchanged, and the bench around it. The record of
R26 is `Block`; this wider one closes it over the host's argument-less `step` (log entry 23). -/
structure State extends Block where
  bench : Bench
  deriving DecidableEq, Repr

/-- Faults: there is none. "The block raises no synchronous exception" (`60_exceptions.md` R97), so the type has no
constructor: nobody raises one, which is safe (log entry 19). -/
inductive Fault where
  deriving DecidableEq, Repr

/-- Refusals. -/
inductive Refusal where
  /-- Raised by an arm of `exec` whose operation has no meaning yet. No arm raises it in this model; a refusal is safe
  (log entry 19). -/
  | notModelled (mnemonic : String)
  deriving DecidableEq, Repr

/-- The reset values of the nine shared elements (`10_state.md` R25). -/
def Regs.reset (c : Config) : Regs where
  value := code16 c.valueInit
  buf := render c (code16 c.valueInit)
  cursor := 0
  countdown := c.timeout
  segOut := 0x00
  comOut := 0b0000
  pendMux := false
  pendSec := false
  dirty := false

/-- The reset values of the flip-flops (`10_state.md` R25): tick chains 0, button chain 1 (released). -/
def Sync.reset : Sync where
  muxS1 := false
  muxS2 := false
  muxS3 := false
  secS1 := false
  secS2 := false
  secS3 := false
  btnS1 := true
  btnS2 := true

/-- The block after RESET (`10_state.md` R25). -/
def Block.reset (c : Config) : Block where
  regs := Regs.reset c
  sync := Sync.reset

/-- The bench before anything has happened: no input given, no level drawn, no result shown (DESIGN CHOICE, log
entries 2 and 3). -/
def Bench.reset : Bench where
  inputs := []
  source := { name := 0 }
  encOut := 0x00
  rendOut := { p0 := 0x00, p1 := 0x00, p2 := 0x00, p3 := 0x00 }

/-- The machine right after RESET with the default parameters (`10_state.md` R25, R29). -/
def State.reset : State where
  regs := Regs.reset Config.cfg
  sync := Sync.reset
  bench := Bench.reset

end Sys2Proof.Machine
end

