-- ==== Sys2Proof/Machine/Ops.lean ====
section
/-! DEFINITION. The named operations over the state: register writes (one setter per register), the two storage accesses of
`00_scope.md` R8, entering a tick's service (`60_exceptions.md` R109), the bench (input levels, results of combinational
operations), and the view of a state as the block it holds. Every meaning goes through these. -/

namespace Sys2Proof.Machine

/-- `VALUE <- v`. -/
def Regs.setValue (r : Regs) (v : Value) : Regs := { r with value := v }

/-- `COUNTDOWN <- c`. -/
def Regs.setCountdown (r : Regs) (c : Countdown) : Regs := { r with countdown := c }

/-- `CURSOR <- c`. -/
def Regs.setCursor (r : Regs) (c : Cursor) : Regs := { r with cursor := c }

/-- `COM_OUT <- com; SEG_OUT <- seg`, the pair changed together (`42_digit_multiplexer.md` R73; `60_exceptions.md` R114). -/
def Regs.setOutputs (r : Regs) (com : ComSel) (seg : SegPat) : Regs := { r with comOut := com, segOut := seg }

/-- `DIRTY <- d`. -/
def Regs.setDirty (r : Regs) (d : Bool) : Regs := { r with dirty := d }

/-- `PEND_MUX <- p`. -/
def Regs.setPendMux (r : Regs) (p : Bool) : Regs := { r with pendMux := p }

/-- `PEND_SEC <- p`. -/
def Regs.setPendSec (r : Regs) (p : Bool) : Regs := { r with pendSec := p }

/-- `MemRead(i, 1)`: one slot, `BUF[i]` (`00_scope.md` R8; `20_memory.md` R35). The two-bit address cannot be out of range
(`20_memory.md` R34). -/
def bufRead (b : Buf) (i : Cursor) : SegPat :=
  match i.toNat with
  | 0 => b.p0
  | 1 => b.p1
  | 2 => b.p2
  | _ => b.p3

/-- `MemRead(i, 1)` on the registers. -/
def Regs.memRead (r : Regs) (i : Cursor) : SegPat := bufRead r.buf i

/-- `MemWrite(0, 4, b)`: the whole-buffer replace `BUF <- b`, the only write `BUF` has (`00_scope.md` R8; `10_state.md` R12;
`20_memory.md` R36). -/
def Regs.memWrite (r : Regs) (b : Buf) : Regs := { r with buf := b }

/-- Entering the service of the mux tick: no state is saved and no mode changes; only the pending flag is cleared
(`60_exceptions.md` R109, R104). There is no return operation (R111). -/
def Regs.serveMux (r : Regs) : Regs := r.setPendMux false

/-- Entering the service of the seconds tick (`60_exceptions.md` R109, R104). -/
def Regs.serveSec (r : Regs) : Regs := r.setPendSec false

/-- The block a state holds. -/
def State.block (s : State) : Block := s.toBlock

/-- The state with other registers. -/
def State.withRegs (s : State) (r : Regs) : State := { s with regs := r }

/-- The state with other flip-flops. -/
def State.withSync (s : State) (y : Sync) : State := { s with sync := y }

/-- The state with another block. -/
def State.withBlock (s : State) (b : Block) : State := { s with toBlock := b }

/-- The result of an encoder operation performed on its own, shown on the bench (log entry 3). -/
def State.showPattern (s : State) (p : SegPat) : State := { s with bench := { s.bench with encOut := p } }

/-- The result of a render operation performed on its own, shown on the bench (log entry 3). -/
def State.showBuf (s : State) (b : Buf) : State := { s with bench := { s.bench with rendOut := b } }

/-- The levels sampled at the coming edge: the environment's next input, or a free value when none is given
(`60_exceptions.md` R124; log entry 1). -/
def Bench.sample (e : Bench) : Sample :=
  match e.inputs with
  | [] => Config.freeSample e.source
  | x :: _ => x

/-- The bench once the levels of an edge are used up: the head of the list is gone, or the source has moved on (log
entry 10). -/
def Bench.next (e : Bench) : Bench :=
  match e.inputs with
  | [] => { e with source := Config.nextSource e.source }
  | _ :: xs => { e with inputs := xs }

/-- The levels sampled at a state's coming edge. -/
def State.sample (s : State) : Sample := s.bench.sample

/-- The edge is over: its input levels are used up. -/
def State.endEdge (s : State) : State := { s with bench := s.bench.next }

end Sys2Proof.Machine
end

