-- ==== Sys2Proof/Machine/Flags.lean ====
section
/-! DEFINITION. The derived predicates of `10_state.md` R21 (combinational functions of state; there is no flag register)
and the edge-detect signals of `60_exceptions.md` R100. -/

namespace Sys2Proof.Machine

/-- `TIMED_OUT`: `COUNTDOWN = 0` (`10_state.md` R21). -/
def Regs.timedOut (r : Regs) : Bool := r.countdown == 0

/-- `NEG`: `VALUE[15] = 1` (`10_state.md` R21). -/
def Regs.neg (r : Regs) : Bool := r.value.getLsbD 15

/-- `AT_MAX`: `signed16(VALUE) + 1 > 9999` (`10_state.md` R21). -/
def Regs.atMax (r : Regs) : Bool := decide (signed16 r.value + 1 > valueMax)

/-- `REQ`: `{PEND_MUX, PEND_SEC, DIRTY}` (`10_state.md` R21). -/
def Regs.req (r : Regs) : BitVec 3 := reqWord r.pendMux r.pendSec r.dirty

/-- `SLEEP`: `REQ = 0b000` (`10_state.md` R21; `45_idle_loop.md` R94). -/
def Regs.sleep (r : Regs) : Bool := r.req == 0b000

/-- `em = MUX_S2 & ~MUX_S3`, from the values before the edge (`60_exceptions.md` R100). -/
def Sync.em (y : Sync) : Bool := y.muxS2 && !y.muxS3

/-- `es = SEC_S2 & ~SEC_S3`, from the values before the edge (`60_exceptions.md` R100). -/
def Sync.es (y : Sync) : Bool := y.secS2 && !y.secS3

end Sys2Proof.Machine
end

