-- ==== Sys2Proof/Machine/Buffer.lean ====
section
/-! DEFINITION. Meanings of the display buffer update (`41_display_buffer.md` R67 to R72). -/

namespace Sys2Proof.Machine

/-- RECOMPUTE (`41_display_buffer.md` R69): the whole-buffer replace and the end of the request, at one edge. -/
def Regs.recompute (c : Config) (r : Regs) : Regs :=
  (r.memWrite (render c r.value)).setDirty false

/-- RENDER_POS of `VALUE` (R67): combinational, the result on the bench (log entries 3 and 7). -/
def execRenderPos (s : State) : Host.Outcome State Fault Refusal :=
  .next (s.showBuf (renderPos Config.cfg s.regs.value))

/-- RENDER_NEG of `VALUE` (R68): combinational, the result on the bench (log entries 3 and 7). -/
def execRenderNeg (s : State) : Host.Outcome State Fault Refusal :=
  .next (s.showBuf (renderNeg Config.cfg s.regs.value))

/-- RECOMPUTE (R69). -/
def execRecompute (s : State) : Host.Outcome State Fault Refusal :=
  .next (s.withRegs (s.regs.recompute Config.cfg))

end Sys2Proof.Machine
end

