-- ==== Sys2Proof/Machine/Counter.lean ====
section
/-! DEFINITION. Meanings of the seconds counter (`44_counter_clock.md` R87 to R91). -/

namespace Sys2Proof.Machine

/-- COUNT_INC (`44_counter_clock.md` R87). In the case that selects it the sum is at most 9999; performed on its own at
0x7FFF the sum has no 16-bit code and the result is a free value (log entry 9). -/
def Regs.countInc (r : Regs) : Regs :=
  r.setValue (if r.value = 0x7FFF then Config.overflowedValue else code16 (signed16 r.value + 1))

/-- COUNT_WRAP (R88). -/
def Regs.countWrap (c : Config) (r : Regs) : Regs := r.setValue (code16 c.valueMin)

/-- SEC_TICK (R89): count, request the recompute, and serve the pending flag. -/
def Regs.secTick (c : Config) (r : Regs) : Regs :=
  let r1 := if signed16 r.value + 1 > valueMax then r.countWrap c else r.countInc
  (r1.setDirty true).serveSec

/-- COUNT_INC (R87), performed whatever selects it (log entry 7). -/
def execCountInc (s : State) : Host.Outcome State Fault Refusal :=
  .next (s.withRegs s.regs.countInc)

/-- COUNT_WRAP (R88), performed whatever selects it (log entry 7). -/
def execCountWrap (s : State) : Host.Outcome State Fault Refusal :=
  .next (s.withRegs (s.regs.countWrap Config.cfg))

/-- SEC_TICK (R89). A capture at the same edge is STEP's part (`60_exceptions.md` R104). -/
def execSecTick (s : State) : Host.Outcome State Fault Refusal :=
  .next (s.withRegs (s.regs.secTick Config.cfg))

end Sys2Proof.Machine
end

