-- ==== Sys2Proof/Machine/Encoder.lean ====
section
/-! DEFINITION. Meanings of the segment encoder's operations (`40_segment_encoder.md` R62 to R65). The encoder is
combinational: performed on its own, an operation changes no state element; its result is shown on the bench (log
entry 3). Inside RECOMPUTE it is used through `render`. -/

namespace Sys2Proof.Machine

/-- ENC_DIGIT of one code, the result on the bench. -/
def State.encode (s : State) (d : Bcd) : State := s.showPattern (encDigit Config.cfg d)

/-- ENC_0 (R62). -/
def execEnc0 (s : State) : Host.Outcome State Fault Refusal := .next (s.encode 0)

/-- ENC_1 (R62). -/
def execEnc1 (s : State) : Host.Outcome State Fault Refusal := .next (s.encode 1)

/-- ENC_2 (R62). -/
def execEnc2 (s : State) : Host.Outcome State Fault Refusal := .next (s.encode 2)

/-- ENC_3 (R62). -/
def execEnc3 (s : State) : Host.Outcome State Fault Refusal := .next (s.encode 3)

/-- ENC_4 (R62). -/
def execEnc4 (s : State) : Host.Outcome State Fault Refusal := .next (s.encode 4)

/-- ENC_5 (R62). -/
def execEnc5 (s : State) : Host.Outcome State Fault Refusal := .next (s.encode 5)

/-- ENC_6 (R62). -/
def execEnc6 (s : State) : Host.Outcome State Fault Refusal := .next (s.encode 6)

/-- ENC_7 (R62). -/
def execEnc7 (s : State) : Host.Outcome State Fault Refusal := .next (s.encode 7)

/-- ENC_8 (R62). -/
def execEnc8 (s : State) : Host.Outcome State Fault Refusal := .next (s.encode 8)

/-- ENC_9 (R62). -/
def execEnc9 (s : State) : Host.Outcome State Fault Refusal := .next (s.encode 9)

/-- ENC_RSVD_A: the codes 10 and 11 (R65). -/
def execEncRsvdA (d : Bcd) (s : State) : Host.Outcome State Fault Refusal := .next (s.encode d)

/-- ENC_RSVD_B: the codes 12 to 15 (R65). -/
def execEncRsvdB (d : Bcd) (s : State) : Host.Outcome State Fault Refusal := .next (s.encode d)

/-- ENC_MINUS (R63). -/
def execEncMinus (s : State) : Host.Outcome State Fault Refusal := .next (s.showPattern encMinusPattern)

/-- ENC_BLANK (R64). -/
def execEncBlank (s : State) : Host.Outcome State Fault Refusal := .next (s.showPattern encBlankPattern)

end Sys2Proof.Machine
end

