-- ==== Sys2Proof/Machine/Idle.lean ====
section
/-! DEFINITION. Meaning of the idle sequencer's operation (`45_idle_loop.md` R93). -/

namespace Sys2Proof.Machine

/-- IDLE (R93): nothing but the synchronizer and the pending flags may change at its edge, and those are STEP's part. -/
def execIdle (s : State) : Host.Outcome State Fault Refusal := .next s

end Sys2Proof.Machine
end

