-- ==== Sys2Proof/Machine/Debounce.lean ====
section
/-! DEFINITION. Meanings of the debounce and inactivity-timeout FSM (`43_debounce_timeout.md` R80 to R83). -/

namespace Sys2Proof.Machine

/-- DB_REARM (`43_debounce_timeout.md` R80). -/
def Regs.dbRearm (c : Config) (r : Regs) : Regs := r.setCountdown c.timeout

/-- DB_COUNT (R81). The subtraction cannot borrow in the case that selects it; performed on its own at 0 the result is a
free value (log entry 8). -/
def Regs.dbCount (r : Regs) : Regs :=
  r.setCountdown (if r.countdown = 0 then Config.borrowedCountdown else r.countdown - 1)

/-- DB_HOLD0 (R82). -/
def Regs.dbHold0 (r : Regs) : Regs := r.setCountdown 0

/-- DEBOUNCE (R83): the case is chosen by the button bit and the countdown before the tick (R51). -/
def Regs.debounce (c : Config) (b : Bool) (r : Regs) : Regs :=
  if b = false then r.dbRearm c
  else if r.countdown ≠ 0 then r.dbCount
  else r.dbHold0

/-- DB_REARM (R80), performed whatever selects it (log entry 7). -/
def execDbRearm (s : State) : Host.Outcome State Fault Refusal :=
  .next (s.withRegs (s.regs.dbRearm Config.cfg))

/-- DB_COUNT (R81), performed whatever selects it (log entry 7). -/
def execDbCount (s : State) : Host.Outcome State Fault Refusal :=
  .next (s.withRegs s.regs.dbCount)

/-- DB_HOLD0 (R82), performed whatever selects it (log entry 7). -/
def execDbHold0 (s : State) : Host.Outcome State Fault Refusal :=
  .next (s.withRegs s.regs.dbHold0)

/-- DEBOUNCE (R83) with `b = BTN_S2` (`60_exceptions.md` R103). -/
def execDebounce (s : State) : Host.Outcome State Fault Refusal :=
  .next (s.withRegs (s.regs.debounce Config.cfg s.sync.btnS2))

end Sys2Proof.Machine
end

