-- ==== Sys2Proof/Machine/Multiplexer.lean ====
section
/-! DEFINITION. Meanings of the digit multiplexer (`42_digit_multiplexer.md` R73 to R76). -/

namespace Sys2Proof.Machine

/-- MUX_DRIVE (`42_digit_multiplexer.md` R73): one common line and the slot under the cursor. -/
def Regs.muxDrive (r : Regs) : Regs := r.setOutputs (onehot4 r.cursor) (r.memRead r.cursor)

/-- MUX_BLANK (R74): everything off, the buffer not read. -/
def Regs.muxBlank (r : Regs) : Regs := r.setOutputs 0b0000 blank

/-- CURSOR_ADV (R75): modulo 4, on every tick, blank or not (decision D16, conflict C1). -/
def Regs.cursorAdv (r : Regs) : Regs := r.setCursor (r.cursor + 1)

/-- MUX_TICK (R76): debounce, then the output gated by the countdown just computed (R84, conflict C4), then the cursor,
then the service of the pending flag. -/
def Regs.muxTick (c : Config) (b : Bool) (r : Regs) : Regs :=
  let r1 := r.debounce c b
  let r2 := if r1.countdown ≠ 0 then r1.muxDrive else r1.muxBlank
  r2.cursorAdv.serveMux

/-- MUX_DRIVE (R73), performed whatever selects it (log entry 7). -/
def execMuxDrive (s : State) : Host.Outcome State Fault Refusal :=
  .next (s.withRegs s.regs.muxDrive)

/-- MUX_BLANK (R74), performed whatever selects it (log entry 7). -/
def execMuxBlank (s : State) : Host.Outcome State Fault Refusal :=
  .next (s.withRegs s.regs.muxBlank)

/-- CURSOR_ADV (R75). -/
def execCursorAdv (s : State) : Host.Outcome State Fault Refusal :=
  .next (s.withRegs s.regs.cursorAdv)

/-- MUX_TICK (R76) with `b = BTN_S2`. A capture at the same edge is STEP's part (`60_exceptions.md` R104). -/
def execMuxTick (s : State) : Host.Outcome State Fault Refusal :=
  .next (s.withRegs (s.regs.muxTick Config.cfg s.sync.btnS2))

end Sys2Proof.Machine
end

