-- ==== Sys2Proof/Machine/Reset.lean ====
section
/-! DEFINITION. Meaning of RESET (`70_reset_and_hazards.md` R125). -/

namespace Sys2Proof.Machine

/-- RESET (R125): every element of the block at the value of `10_state.md` R25; the input levels are ignored. -/
def execReset (s : State) : Host.Outcome State Fault Refusal :=
  .next (s.withBlock (Block.reset Config.cfg))

end Sys2Proof.Machine
end

