-- ==== Sys2Proof/Machine/Synchronizer.lean ====
section
/-! DEFINITION. The interrupt synchronizer and the arbiter (`60_exceptions.md` R100 to R104, R107). -/

namespace Sys2Proof.Machine

/-- `Arb(PEND_MUX, PEND_SEC, DIRTY)`, fixed priority (`60_exceptions.md` R107; `30_encoding.md` R50). -/
def arb (pendMux pendSec dirty : Bool) : Instr :=
  if pendMux then .muxTick pendSec dirty
  else if pendSec then .secTick dirty
  else if dirty then .recompute
  else .idle

/-- CAPTURE_MUX: a detected edge sets the pending flag (R101). -/
def Regs.captureMux (em : Bool) (r : Regs) : Regs := r.setPendMux (em || r.pendMux)

/-- CAPTURE_SEC (R102). -/
def Regs.captureSec (es : Bool) (r : Regs) : Regs := r.setPendSec (es || r.pendSec)

/-- The shift of the mux tick's chain (R100). -/
def Sync.shiftMux (tm : Bool) (y : Sync) : Sync :=
  { y with muxS1 := tm, muxS2 := y.muxS1, muxS3 := y.muxS2 }

/-- The shift of the seconds tick's chain (R100). -/
def Sync.shiftSec (ts : Bool) (y : Sync) : Sync :=
  { y with secS1 := ts, secS2 := y.secS1, secS3 := y.secS2 }

/-- BTN_SYNC: two flip-flops, no edge detector (R103). -/
def Sync.shiftBtn (bn : Bool) (y : Sync) : Sync :=
  { y with btnS1 := bn, btnS2 := y.btnS1 }

/-- CAPTURE_MUX (R101). Performed on its own it does not shift the chain; the shift is STEP's part (log entry 11). -/
def execCaptureMux (s : State) : Host.Outcome State Fault Refusal :=
  .next (s.withRegs (s.regs.captureMux s.sync.em))

/-- CAPTURE_SEC (R102). Performed on its own it does not shift the chain (log entry 11). -/
def execCaptureSec (s : State) : Host.Outcome State Fault Refusal :=
  .next (s.withRegs (s.regs.captureSec s.sync.es))

/-- BTN_SYNC (R103), with the level of `btn_n_a` at the coming edge. Performed on its own it does not end the edge (log
entry 10). -/
def execBtnSync (s : State) : Host.Outcome State Fault Refusal :=
  .next (s.withSync (s.sync.shiftBtn s.sample.bn))

end Sys2Proof.Machine
end

