-- ==== Sys2Proof/Machine/Edge.lean ====
section
/-! DEFINITION. One clock edge (`60_exceptions.md` R110). `Block.edge` is STEP as the spec writes it, a function of the four
sampled bits and the block; `execStep` is the meaning of the table's row STEP. `State.edgeInstr` and `State.finishEdge` are
what `step` (Step.lean) puts around `exec`: which operation the edge performs, and what every edge does besides. -/

namespace Sys2Proof.Machine

/-- The case of the arbiter in STEP (R110), less the two pending flags. -/
def Regs.serve (c : Config) (btn : Bool) (r : Regs) : Regs :=
  if r.pendMux then r.muxTick c btn
  else if r.pendSec then r.secTick c
  else if r.dirty then r.recompute c
  else r

/-- STEP(rst, tm, ts, bn) (`60_exceptions.md` R110). Every right-hand side is a value before the edge. The pending flags
follow R104: the service clears its own flag, and a capture at the same edge wins. -/
def Block.edge (c : Config) (x : Sample) (b : Block) : Block :=
  if x.rst then Block.reset c
  else
    let r := b.regs
    let y := b.sync
    let opIsMuxTick := r.pendMux
    let opIsSecTick := !r.pendMux && r.pendSec
    { regs :=
        { r.serve c y.btnS2 with
          pendMux := y.em || (r.pendMux && !opIsMuxTick)
          pendSec := y.es || (r.pendSec && !opIsSecTick) }
      sync :=
        { muxS1 := x.tm
          muxS2 := y.muxS1
          muxS3 := y.muxS2
          secS1 := x.ts
          secS2 := y.secS1
          secS3 := y.secS2
          btnS1 := x.bn
          btnS2 := y.btnS1 } }

/-- The block after a list of edges, oldest sample first: the iteration of STEP (R110). -/
def Block.run (c : Config) : List Sample → Block → Block
  | [], b => b
  | x :: xs, b => Block.run c xs (b.edge c x)

/-- STEP as an operation (R110): one edge with the levels the environment presents. -/
def execStep (s : State) : Host.Outcome State Fault Refusal :=
  .next (s.withBlock (s.block.edge Config.cfg s.sample)).endEdge

/-- The operation an edge performs: RESET when `rst` is sampled 1, else what the arbiter selects from `REQ`
(R107, R110). -/
def State.edgeInstr (s : State) : Instr :=
  if s.sample.rst then .reset else arb s.regs.pendMux s.regs.pendSec s.regs.dirty

/-- The operation code of that operation (log entry 5): the request word in format REQ, or the word 1 in format RST. -/
def State.edgeCode (s : State) : List Byte :=
  if s.sample.rst then [0b1, Format.rst.tag] else [s.regs.req.setWidth 8, Format.req.tag]

/-- What every edge does around its operation: with `rst = 0` the captures and the shift of the synchronizers, on the values
before the edge (R100 to R104); with `rst = 1` nothing (R125). The edge's input levels are then used up. `s` is the state
before the edge, `t` the state its operation leaves. -/
def State.finishEdge (s t : State) : State :=
  if s.sample.rst then t.endEdge
  else
    ((t.withRegs ((t.regs.captureMux s.sync.em).captureSec s.sync.es)).withSync
      (((s.sync.shiftMux s.sample.tm).shiftSec s.sample.ts).shiftBtn s.sample.bn)).endEdge

/-- The next edge's `rst`, put at the head of the inputs; where no input was given, the other lines idle (ticks low, button
released) (log entry 6). -/
def State.placeRst (s : State) (rst : Bool) : State :=
  match s.bench.inputs with
  | [] => { s with bench := { s.bench with inputs := [{ rst := rst, tm := false, ts := false, bn := true }] } }
  | x :: xs => { s with bench := { s.bench with inputs := { x with rst := rst } :: xs } }

/-- The state whose next edge performs the top-level operation an operation code names: a request word is put into the three
request flags with `rst = 0`; the RST word requests a reset. A code of another format names a part of an operation, which no
edge fetches, and leaves the state as it is (log entry 6). -/
def State.placeCode (s : State) (x : Nat) : State :=
  match Format.ofTag (BitVec.ofNat 8 (x / 256)) with
  | some .req =>
    ((s.withRegs (((s.regs.setPendMux (x.testBit 2)).setPendSec (x.testBit 1)).setDirty (x.testBit 0))).placeRst false)
  | some .rst => s.placeRst true
  | _ => s

end Sys2Proof.Machine
end

