-- ==== Sys2Proof/Machine/Dispatch.lean ====
section
/-! DEFINITION. The dispatch of `exec`: one arm per row of spec/opcode_table.json. -/

namespace Sys2Proof.Machine

/-- The meaning of an operation at the operation level (`00_scope.md` R7): one atomic function from the state to the next. -/
def exec (i : Instr) (s : State) : Host.Outcome State Fault Refusal :=
  match i with
  | .muxTick _ _ => Sys2Proof.Machine.execMuxTick s
  | .secTick _ => Sys2Proof.Machine.execSecTick s
  | .recompute => Sys2Proof.Machine.execRecompute s
  | .idle => Sys2Proof.Machine.execIdle s
  | .dbRearm _ => Sys2Proof.Machine.execDbRearm s
  | .dbCount => Sys2Proof.Machine.execDbCount s
  | .dbHold0 => Sys2Proof.Machine.execDbHold0 s
  | .muxDrive => Sys2Proof.Machine.execMuxDrive s
  | .muxBlank => Sys2Proof.Machine.execMuxBlank s
  | .renderPos => Sys2Proof.Machine.execRenderPos s
  | .renderNeg => Sys2Proof.Machine.execRenderNeg s
  | .countInc => Sys2Proof.Machine.execCountInc s
  | .countWrap => Sys2Proof.Machine.execCountWrap s
  | .enc0 => Sys2Proof.Machine.execEnc0 s
  | .enc1 => Sys2Proof.Machine.execEnc1 s
  | .enc2 => Sys2Proof.Machine.execEnc2 s
  | .enc3 => Sys2Proof.Machine.execEnc3 s
  | .enc4 => Sys2Proof.Machine.execEnc4 s
  | .enc5 => Sys2Proof.Machine.execEnc5 s
  | .enc6 => Sys2Proof.Machine.execEnc6 s
  | .enc7 => Sys2Proof.Machine.execEnc7 s
  | .enc8 => Sys2Proof.Machine.execEnc8 s
  | .enc9 => Sys2Proof.Machine.execEnc9 s
  | .encRsvdA d => Sys2Proof.Machine.execEncRsvdA d s
  | .encRsvdB d => Sys2Proof.Machine.execEncRsvdB d s
  | .encMinus => Sys2Proof.Machine.execEncMinus s
  | .encBlank => Sys2Proof.Machine.execEncBlank s
  | .cursorAdv => Sys2Proof.Machine.execCursorAdv s
  | .debounce => Sys2Proof.Machine.execDebounce s
  | .captureMux => Sys2Proof.Machine.execCaptureMux s
  | .captureSec => Sys2Proof.Machine.execCaptureSec s
  | .btnSync => Sys2Proof.Machine.execBtnSync s
  | .step => Sys2Proof.Machine.execStep s
  | .reset => Sys2Proof.Machine.execReset s

end Sys2Proof.Machine
end

