-- ==== Sys2Proof/Machine/Step.lean ====
section
/-! DEFINITION. The step of the machine: one clock edge. The operation the edge selects is performed (`exec`), and the edge is
finished around it (captures, synchronizer shift, input used up). That this is STEP of `60_exceptions.md` R110, written out in
`Block.edge`, is an obligation. -/

namespace Sys2Proof.Machine

/-- One edge of `clk`. -/
def step (s : State) : Host.Outcome State Fault Refusal :=
  match exec s.edgeInstr s with
  | .next t => .next (s.finishEdge t)
  | .fault f => .fault f
  | .refused r => .refused r

/-- The state whose very next step performs the operation with the code `w` (its bits above `nbits` are 0): the request
flags or the reset line are set to it. There is no program memory (log entry 6). -/
def State.withFetchWord (s : State) (nbits w : Nat) : State :=
  s.placeCode (w % 2 ^ nbits)

end Sys2Proof.Machine
end

