-- ==== Sys2Proof/Machine/Event.lean ====
section
/-! DEFINITION. The event-level model (`60_exceptions.md` R112) with the trace syntax of `30_encoding.md` R59, R60. Its state
is the nine shared elements, `Regs`; it has no synchronizer and no button state. -/

namespace Sys2Proof.Machine

/-- The tokens of a trace (`30_encoding.md` R59). -/
inductive Token where
  /-- `+m`: a pulse of the high-frequency source is captured. -/
  | plusM
  /-- `+s`: a pulse of the 1 Hz source is captured. -/
  | plusS
  /-- `M0` (`b = false`, pressed) or `M1` (`b = true`, released): MUX_TICK. -/
  | m (b : Bool)
  /-- `S`: SEC_TICK. -/
  | s
  /-- `R`: RECOMPUTE. -/
  | r
  /-- `I`: IDLE. -/
  | i
  /-- `RST`: RESET. -/
  | rst
  deriving DecidableEq, Repr

/-- A token as it is written (`30_encoding.md` R59). -/
def Token.text : Token → String
  | .plusM => "+m"
  | .plusS => "+s"
  | .m false => "M0"
  | .m true => "M1"
  | .s => "S"
  | .r => "R"
  | .i => "I"
  | .rst => "RST"

/-- When a step of the event level is enabled (`60_exceptions.md` R112). -/
def Token.enabled (r : Regs) : Token → Bool
  | .plusM => true
  | .plusS => true
  | .m _ => r.pendMux
  | .s => !r.pendMux && r.pendSec
  | .r => !r.pendMux && !r.pendSec && r.dirty
  | .i => r.req == 0b000
  | .rst => true

/-- The effect of a step of the event level (`60_exceptions.md` R112). -/
def Token.effect (c : Config) (r : Regs) : Token → Regs
  | .plusM => r.setPendMux true
  | .plusS => r.setPendSec true
  | .m b => r.muxTick c b
  | .s => r.secTick c
  | .r => r.recompute c
  | .i => r
  | .rst => Regs.reset c

/-- One step of the event level: the effect where the step is enabled, no step otherwise. -/
def Token.fire (c : Config) (r : Regs) (k : Token) : Option Regs :=
  if k.enabled r then some (k.effect c r) else none

/-- A trace from a state: the state it ends in, none where some token is not legal at its point (`30_encoding.md` R59). -/
def runTrace (c : Config) : List Token → Regs → Option Regs
  | [], r => some r
  | k :: ks, r =>
    match k.fire c r with
    | some r' => runTrace c ks r'
    | none => none

/-- The service steps of `60_exceptions.md` R112 and R113: mux service, seconds service, recompute. -/
def Token.isService : Token → Bool
  | .plusM => false
  | .plusS => false
  | .m _ => true
  | .s => true
  | .r => true
  | .i => false
  | .rst => false

/-- An infinite run of the event level, "the run never ends" (`60_exceptions.md` R112, R113): `k n` is the step taken in the state
`r n`, enabled there, and `r (n + 1)` is what it leaves. -/
def InfiniteRun (c : Config) (k : Nat → Token) (r : Nat → Regs) : Prop :=
  ∀ n, (k n).fire c (r n) = some (r (n + 1))

/-- Weak fairness of the service steps (`60_exceptions.md` R113): if `REQ` is nonzero from some point on, a service step is taken
after that point. The spec's assumption on the runs of the event level. -/
def WeaklyFair (k : Nat → Token) (r : Nat → Regs) : Prop :=
  ∀ n, (∀ j, n ≤ j → (r j).req ≠ 0b000) → ∃ j, n ≤ j ∧ (k j).isService = true

/-- The pseudo-tokens (`30_encoding.md` R60). -/
inductive Pseudo where
  | tok (k : Token)
  /-- `T0`. -/
  | t0
  /-- `T1`. -/
  | t1
  /-- `SEC`. -/
  | sec
  /-- `X*n`. -/
  | times (x : Pseudo) (n : Nat)
  deriving DecidableEq, Repr

/-- The expansion of a pseudo-token (`30_encoding.md` R60). -/
def Pseudo.expand : Pseudo → List Token
  | .tok k => [k]
  | .t0 => [.plusM, .m false]
  | .t1 => [.plusM, .m true]
  | .sec => [.plusS, .s, .r]
  | .times x n => (List.replicate n x.expand).flatten

/-- The token of the operation performed at an edge (`60_exceptions.md` R112): RST, or what the arbiter selects, MUX_TICK
with its button bit. -/
def Block.edgeToken (x : Sample) (b : Block) : Token :=
  if x.rst then .rst
  else if b.regs.pendMux then .m b.sync.btnS2
  else if b.regs.pendSec then .s
  else if b.regs.dirty then .r
  else .i

/-- The tokens an edge maps to (`60_exceptions.md` R112): its operation, then `+m` if `em = 1` and `+s` if `es = 1`; at a
reset edge the operation alone. -/
def Block.edgeTrace (x : Sample) (b : Block) : List Token :=
  b.edgeToken x ::
    (if x.rst then []
     else (if b.sync.em then [.plusM] else []) ++ (if b.sync.es then [.plusS] else []))

/-- The trace a list of edges maps to. -/
def Block.trace (c : Config) : List Sample → Block → List Token
  | [], _ => []
  | x :: xs, b => b.edgeTrace x ++ Block.trace c xs (b.edge c x)

end Sys2Proof.Machine
end

