-- ==== Sys2Proof/Machine/Hal.lean ====
section
/-! DEFINITION. The two hardware-abstraction calls the source names (`30_encoding.md` R61): what each does to the output
registers, and the calls MUX_DRIVE and MUX_BLANK correspond to. Only their net effect per tick is normative (conflict C7). -/

namespace Sys2Proof.Machine

/-- `setCommonLine(index, active)` and `setSegmentBus(pattern)`. -/
inductive HalCall where
  | setCommonLine (index : Cursor) (active : Bool)
  | setSegmentBus (pattern : SegPat)
  deriving DecidableEq, Repr

/-- `setSegmentBus(p)` is `SEG_OUT <- p`; `setCommonLine(i, active)` is `COM_OUT[i] <- (active ? 1 : 0)` (R61). -/
def HalCall.apply (r : Regs) : HalCall → Regs
  | .setCommonLine i active =>
    r.setOutputs (if active then r.comOut ||| onehot4 i else r.comOut &&& ~~~onehot4 i) r.segOut
  | .setSegmentBus p => r.setOutputs r.comOut p

/-- `setCommonLine(j, false)` for all `j`. -/
def halLinesOff : List HalCall :=
  [.setCommonLine 0 false, .setCommonLine 1 false, .setCommonLine 2 false, .setCommonLine 3 false]

/-- The calls MUX_DRIVE corresponds to (R61). -/
def halDrive (r : Regs) : List HalCall :=
  halLinesOff ++ [.setCommonLine r.cursor true, .setSegmentBus (r.memRead r.cursor)]

/-- The calls MUX_BLANK corresponds to (R61). -/
def halBlank : List HalCall := halLinesOff ++ [.setSegmentBus 0x00]

/-- The registers after a list of calls. -/
def halApply (calls : List HalCall) (r : Regs) : Regs := calls.foldl HalCall.apply r

end Sys2Proof.Machine
end

