-- ==== Sys2Proof/Machine/Ports.lean ====
section
/-! DEFINITION. The output ports (`10_state.md` R27, R28; `45_idle_loop.md` R94): combinational functions of the registers. -/

namespace Sys2Proof.Machine

/-- The levels on the output ports. -/
structure Ports where
  segO : BitVec 8
  comO : BitVec 4
  sleepO : Bool
  deriving DecidableEq, Repr

/-- `seg_o`, `com_o` and `sleep_o` (`10_state.md` R28). -/
def Regs.ports (c : Config) (r : Regs) : Ports where
  segO := r.segOut ^^^ (if c.segInvert then 0xFF else 0x00)
  comO := r.comOut ^^^ (if c.comInvert then 0b1111 else 0b0000)
  sleepO := !r.pendMux && !r.pendSec && !r.dirty

end Sys2Proof.Machine
end

