-- ==== Sys2Proof/Safety.lean ====
section
/-! DEFINITION. What claims are stated in terms of: the invariants of `10_state.md` R24, the invariant of the synchronizer that
excludes a lost tick (`60_exceptions.md` R106), counting the edges of a run, and the environment's duty on the tick lines
(`70_reset_and_hazards.md` R134, R139). -/

namespace Sys2Proof.Machine

/-- The invariants of `10_state.md` R24, items 1 to 6 and 8, and item 7 for a state on its own (that the value rendered in the
buffer is one `VALUE` once held is a claim about runs). -/
structure Inv (c : Config) (r : Regs) : Prop where
  /-- Item 1. -/
  value_range : c.valueMin ≤ signed16 r.value ∧ signed16 r.value ≤ valueMax
  /-- Item 2. -/
  countdown_range : r.countdown ≤ c.timeout
  /-- Item 3. -/
  com_one_hot : r.comOut ∈ [0b0000#4, 0b0001#4, 0b0010#4, 0b0100#4, 0b1000#4]
  /-- Item 4. -/
  seg_legal : (r.segOut = blank ∨ r.segOut = minus ∨ r.segOut ∈ c.segTable.toList) ∧ r.segOut.getLsbD 7 = false
  /-- Item 5. -/
  dark_together : r.comOut = 0b0000 ↔ r.segOut = blank
  /-- Item 6. -/
  buf_digits : (r.buf.p0 = minus ∨ r.buf.p0 ∈ c.segTable.toList) ∧
    r.buf.p1 ∈ c.segTable.toList ∧ r.buf.p2 ∈ c.segTable.toList ∧ r.buf.p3 ∈ c.segTable.toList
  /-- Items 6 (last clause) and 7: the buffer is the rendering of ONE value of the range, and shows the minus sign exactly when
  that value is negative. -/
  buf_of_one_value : ∃ w : Value, (c.valueMin ≤ signed16 w ∧ signed16 w ≤ valueMax) ∧ r.buf = render c w ∧
    (r.buf.p0 = minus ↔ signed16 w < 0)
  /-- Item 8. -/
  clean_buf : r.dirty = false → r.buf = render c r.value

/-- No pending tick can be overrun: a pending mux tick was captured at the last edge, and a pending seconds tick that has to
wait for it was too, so neither chain can detect an edge now (`60_exceptions.md` R106). -/
def SyncInv (b : Block) : Prop :=
  (b.regs.pendMux = true → b.sync.muxS3 = true) ∧
    (b.regs.pendMux = true → b.regs.pendSec = true → b.sync.secS3 = true)

/-- How many edges of a run satisfy a test on the sample and the block before the edge. -/
def Block.countEdges (c : Config) (p : Sample → Block → Bool) : List Sample → Block → Nat
  | [], _ => 0
  | x :: xs, b => (p x b).toNat + Block.countEdges c p xs (b.edge c x)

/-- The positions of the low-to-high transitions of a line, given its level at successive edges: position `k` where level `k`
is 0 and level `k + 1` is 1. -/
def risesFrom : Nat → List Bool → List Nat
  | k, a :: b :: rest => (if !a && b then [k] else []) ++ risesFrom (k + 1) (b :: rest)
  | _, [_] => []
  | _, [] => []

/-- The environment's duty on a tick line (`70_reset_and_hazards.md` R134, R139), rising transitions at least 8 clock periods apart,
as it shows on the SAMPLED levels: at least 7 edges apart, since either transition may be sampled one edge late (R124). That the
bound reads so on sampled levels is the model's (DEDUCED, safe, log entry 22). -/
abbrev RisesSpaced (line : List Bool) : Prop :=
  (risesFrom 0 line).Pairwise fun i j => i + 7 ≤ j

/-- The last three levels of `tick_mux_a` the chain holds, oldest first, and the levels of the coming edges. -/
def Block.muxLine (b : Block) (xs : List Sample) : List Bool :=
  [b.sync.muxS3, b.sync.muxS2, b.sync.muxS1] ++ xs.map Sample.tm

/-- The same for `tick_sec_a`. -/
def Block.secLine (b : Block) (xs : List Sample) : List Bool :=
  [b.sync.secS3, b.sync.secS2, b.sync.secS1] ++ xs.map Sample.ts

/-- No edge of the list is a reset edge. -/
abbrev NoReset (xs : List Sample) : Prop := ∀ x ∈ xs, x.rst = false

end Sys2Proof.Machine
end

