-- ==== Sys2Proof/Certificates/Slice0/Obligations.lean ====
section
/-! DEFINITION. The statements for the provers. Each docstring names the rules of spec/ it comes from; where a clause rests on a
decision of the spec (`92_eei_decisions.md` D<n>), on an inference the spec marks as its own, or on a choice of the model (a log
entry), the docstring says so. Statements about `exec`, `step` and `State.reset` are about the default parameters; statements with
an argument `c : Config` are about every parameter choice. -/

open Sys2Proof Sys2Proof.Machine

/-! ### Decode -/

/-- Decoding the operation code of a well-formed operation gives it back, with every open bit, and leaves the rest of the bytes
(the two-byte code is the model's, log entry 5; the selector words are those of spec/opcode_table.json). -/
def Obligations.DecodeOfEncodeIsTheOperation : Prop :=
  ∀ (i : Instr) (rest : List Byte), i.wf = true → decode (encode i ++ rest) = .ok (i, rest)

/-- The other direction: whatever decodes is well formed and was that operation's code, so each word has one meaning (the
two-byte code is the model's, log entry 5). -/
def Obligations.EncodeOfDecodeIsTheWord : Prop :=
  ∀ (bytes : List Byte) (i : Instr) (rest : List Byte),
    decode bytes = .ok (i, rest) → i.wf = true ∧ encode i ++ rest = bytes

/-- In each format a word selects a row exactly when it matches the row's match and mask in spec/opcode_table.json
(`30_encoding.md` sections 1 and 2; formats REQ, BCD by the spec's own decisions D6, D12). -/
def Obligations.SelectorWordsMatchTheTable : Prop :=
  (∀ w : BitVec 3,
    (w &&& 0b100 = 0b100 ↔ ∃ s d, decodeReq w = .muxTick s d) ∧
    (w &&& 0b110 = 0b010 ↔ ∃ d, decodeReq w = .secTick d) ∧
    (w &&& 0b111 = 0b001 ↔ decodeReq w = .recompute) ∧
    (w &&& 0b111 = 0b000 ↔ decodeReq w = .idle)) ∧
  (∀ w : BitVec 2,
    (w &&& 0b10 = 0b00 ↔ ∃ z, decodeDbsel w = .dbRearm z) ∧
    (w &&& 0b11 = 0b10 ↔ decodeDbsel w = .dbCount) ∧
    (w &&& 0b11 = 0b11 ↔ decodeDbsel w = .dbHold0)) ∧
  (∀ w : BitVec 1,
    (w = 1 ↔ decodeGate w = .muxDrive) ∧ (w = 0 ↔ decodeGate w = .muxBlank) ∧
    (w = 0 ↔ decodeSign w = .renderPos) ∧ (w = 1 ↔ decodeSign w = .renderNeg) ∧
    (w = 0 ↔ decodeWrap w = .countInc) ∧ (w = 1 ↔ decodeWrap w = .countWrap) ∧
    (w = 1 ↔ decodeRst w = .ok .reset)) ∧
  (∀ w : Bcd,
    (w = 0b0000 ↔ decodeBcd w = .enc0) ∧ (w = 0b0001 ↔ decodeBcd w = .enc1) ∧
    (w = 0b0010 ↔ decodeBcd w = .enc2) ∧ (w = 0b0011 ↔ decodeBcd w = .enc3) ∧
    (w = 0b0100 ↔ decodeBcd w = .enc4) ∧ (w = 0b0101 ↔ decodeBcd w = .enc5) ∧
    (w = 0b0110 ↔ decodeBcd w = .enc6) ∧ (w = 0b0111 ↔ decodeBcd w = .enc7) ∧
    (w = 0b1000 ↔ decodeBcd w = .enc8) ∧ (w = 0b1001 ↔ decodeBcd w = .enc9) ∧
    (w &&& 0b1110 = 0b1010 ↔ decodeBcd w = .encRsvdA w) ∧
    (w &&& 0b1100 = 0b1100 ↔ decodeBcd w = .encRsvdB w))

/-- Some words of every format, written out from the table, decode to the rows they stand for (the tag byte is the model's, log
entry 5). -/
def Obligations.WrittenOutWordsDecode : Prop :=
  decode [0b110#8, 0] = .ok (.muxTick true false, []) ∧
  decode [0b011#8, 0] = .ok (.secTick true, []) ∧
  decode [0b001#8, 0] = .ok (.recompute, []) ∧
  decode [0b000#8, 0] = .ok (.idle, []) ∧
  decode [0b01#8, 1] = .ok (.dbRearm true, []) ∧
  decode [0b10#8, 1] = .ok (.dbCount, []) ∧
  decode [0b0#8, 2] = .ok (.muxBlank, []) ∧
  decode [0b1#8, 3] = .ok (.renderNeg, []) ∧
  decode [0b0#8, 4] = .ok (.countInc, []) ∧
  decode [0b0101#8, 5] = .ok (.enc5, []) ∧
  decode [0b1011#8, 5] = .ok (.encRsvdA 0b1011, []) ∧
  decode [0b1110#8, 5] = .ok (.encRsvdB 0b1110, []) ∧
  decode [0b1#8, 6] = .ok (.reset, [])

/-- What is no word of the table is refused by name: a bit above the format's width, an unknown tag, `rst = 0`, too few bytes
(the refusals are the model's, log entries 5 and 18). -/
def Obligations.OtherWordsAreRefused : Prop :=
  (∀ (f : Format) (w : Byte) (rest : List Byte),
    2 ^ f.width ≤ w.toNat → decode (w :: f.tag :: rest) = .error .wideSelector) ∧
  (∀ (w t : Byte) (rest : List Byte), 8 ≤ t.toNat → decode (w :: t :: rest) = .error .unknownFormat) ∧
  (∀ rest : List Byte, decode (0 :: Format.rst.tag :: rest) = .error .noResetRequested) ∧
  (∀ bytes : List Byte, bytes.length < 2 → decode bytes = .error .truncated)

/-! ### The step -/

/-- An edge runs the operation its code decodes to: the request word in format REQ, or the word 1 in format RST when `rst` is
sampled 1 (the second bytes 0 and 6 are the tags of these formats, the model's, log entry 5). Around it the edge captures, shifts
the synchronizers (`rst = 0` only), and uses up its input levels (their source beside the block is the model's, log entry 1). -/
def Obligations.StepRunsTheDecodedOperation : Prop :=
  ∀ (s t : State) (i : Instr),
    decode (if s.sample.rst then [0b1, 6]
      else [(reqWord s.regs.pendMux s.regs.pendSec s.regs.dirty).setWidth 8, 0]) = .ok (i, []) →
    exec i s = .next t →
    (s.sample.rst = true →
      step s = .next { t with bench := t.bench.next }) ∧
    (s.sample.rst = false →
      step s = .next
        { regs :=
            { t.regs with
              pendMux := (s.sync.muxS2 && !s.sync.muxS3) || t.regs.pendMux
              pendSec := (s.sync.secS2 && !s.sync.secS3) || t.regs.pendSec }
          sync :=
            { muxS1 := s.sample.tm, muxS2 := s.sync.muxS1, muxS3 := s.sync.muxS2,
              secS1 := s.sample.ts, secS2 := s.sync.secS1, secS3 := s.sync.secS2,
              btnS1 := s.sample.bn, btnS2 := s.sync.btnS1 }
          bench := t.bench.next })

/-- What STEP does, case by case of `rst` and the request flags, and that the decoded step is the row STEP
(`60_exceptions.md` sections 2, 3, 5; the spec's own decisions D2, D4, D6; the levels come from the environment, log entry 1).
The last clause but one says the same through `Block.edge`, the function of the sampled levels and the block that runs of edges
are made of. The last: STEP is a function of the state and the four sampled bits, and so is every operation; nothing else that
stands in `State` (the bench, log entries 1 to 3) decides anything about the block (`10_state.md` section 9). -/
def Obligations.StepIsTheClockEdgeFunction : Prop :=
  ∀ s : State,
    let y : Sync :=
      { muxS1 := s.sample.tm, muxS2 := s.sync.muxS1, muxS3 := s.sync.muxS2,
        secS1 := s.sample.ts, secS2 := s.sync.secS1, secS3 := s.sync.secS2,
        btnS1 := s.sample.bn, btnS2 := s.sync.btnS1 }
    let em := s.sync.muxS2 && !s.sync.muxS3
    let es := s.sync.secS2 && !s.sync.secS3
    let after := s.bench.next
    (s.sample.rst = true →
      exec .step s = .next { regs := Regs.reset Config.cfg, sync := Sync.reset, bench := after }) ∧
    (s.sample.rst = false → s.regs.pendMux = true →
      exec .step s = .next
        { regs := { s.regs.muxTick Config.cfg s.sync.btnS2 with
            pendMux := em, pendSec := es || s.regs.pendSec },
          sync := y, bench := after }) ∧
    (s.sample.rst = false → s.regs.pendMux = false → s.regs.pendSec = true →
      exec .step s = .next
        { regs := { s.regs.secTick Config.cfg with pendMux := em, pendSec := es },
          sync := y, bench := after }) ∧
    (s.sample.rst = false → s.regs.pendMux = false → s.regs.pendSec = false → s.regs.dirty = true →
      exec .step s = .next
        { regs := { s.regs with
            buf := render Config.cfg s.regs.value, dirty := false, pendMux := em, pendSec := es },
          sync := y, bench := after }) ∧
    (s.sample.rst = false → s.regs.pendMux = false → s.regs.pendSec = false → s.regs.dirty = false →
      exec .step s = .next
        { regs := { s.regs with pendMux := em, pendSec := es }, sync := y, bench := after }) ∧
    step s = exec .step s ∧
    (∃ t, step s = .next t ∧ t.block = s.block.edge Config.cfg s.sample) ∧
    ∀ (u : State) (i : Instr), s.block = u.block → s.sample = u.sample →
      (∃ s' u', exec i s = .next s' ∧ exec i u = .next u' ∧ s'.block = u'.block) ∧
      (∃ s' u', step s = .next s' ∧ step u = .next u' ∧ s'.block = u'.block)

/-- `60_exceptions.md` R97: nothing faults and nothing refuses. Every operation of the table completes in every state, every edge
completes in every state, and there is no fault to raise. -/
def Obligations.NoOperationStops : Prop :=
  (∀ (i : Instr) (s : State), ∃ t, exec i s = .next t) ∧
  (∀ s : State, ∃ t, step s = .next t) ∧
  IsEmpty Fault

/-! ### Segment encoder -/

/-- ENC_0 to ENC_9, ENC_MINUS and ENC_BLANK give the patterns of `40_segment_encoder.md` (the values are the spec's own decisions
D9, D10; the result is shown on the model's bench, log entry 3) and change nothing else; and the row a digit code selects in format
BCD is what ENC_DIGIT computes for it, for all sixteen codes. -/
def Obligations.EncoderResults : Prop :=
  ∀ s : State,
    exec .enc0 s = .next { s with bench := { s.bench with encOut := 0x7E } } ∧
    exec .enc1 s = .next { s with bench := { s.bench with encOut := 0x30 } } ∧
    exec .enc2 s = .next { s with bench := { s.bench with encOut := 0x6D } } ∧
    exec .enc3 s = .next { s with bench := { s.bench with encOut := 0x79 } } ∧
    exec .enc4 s = .next { s with bench := { s.bench with encOut := 0x33 } } ∧
    exec .enc5 s = .next { s with bench := { s.bench with encOut := 0x5B } } ∧
    exec .enc6 s = .next { s with bench := { s.bench with encOut := 0x5F } } ∧
    exec .enc7 s = .next { s with bench := { s.bench with encOut := 0x70 } } ∧
    exec .enc8 s = .next { s with bench := { s.bench with encOut := 0x7F } } ∧
    exec .enc9 s = .next { s with bench := { s.bench with encOut := 0x7B } } ∧
    exec .encMinus s = .next { s with bench := { s.bench with encOut := 0x01 } } ∧
    exec .encBlank s = .next { s with bench := { s.bench with encOut := 0x00 } } ∧
    ∀ d : Bcd, exec (decodeBcd d) s = .next { s with bench := { s.bench with encOut := encDigit Config.cfg d } }

/-- The reserved digit codes 10 to 15 give `BLANK` (the spec's own decision D12; the bench: log entry 3). -/
def Obligations.ReservedDigitCodesGiveBlank : Prop :=
  ∀ (s : State) (d : Bcd),
    (d &&& 0b1110 = 0b1010 → exec (.encRsvdA d) s = .next { s with bench := { s.bench with encOut := 0x00 } }) ∧
    (d &&& 0b1100 = 0b1100 → exec (.encRsvdB d) s = .next { s with bench := { s.bench with encOut := 0x00 } })

/-- For every legal table (`40_segment_encoder.md` section "Properties of the encoder", decision D11 for the decimal point): the
encoder is injective on the digits, never gives the minus or blank pattern for a digit, and never lights the decimal point. -/
def Obligations.EncoderIsInjectiveOnDigits : Prop :=
  ∀ (c : Config) (d e : Bcd), c.Legal → d.toNat < 10 →
    (e.toNat < 10 → encDigit c d = encDigit c e → d = e) ∧
    encDigit c d ≠ minus ∧ encDigit c d ≠ blank ∧ lit (encDigit c d) .dp = false

/-! ### Display buffer -/

/-- `41_display_buffer.md` R67: for `v[15] = 0`, slot `3 - k` is the pattern of `digit(v, k)`; the word `n = 0` selects the row. For
every parameter choice. -/
def Obligations.RenderPosShowsFourDigits : Prop :=
  ∀ (c : Config) (v : Value), v.getLsbD 15 = false →
    decodeSign (BitVec.ofBool (v.getLsbD 15)) = .renderPos ∧
    renderPos c v =
      { p0 := encDigit c (bcd (digit v.toNat 3))
        p1 := encDigit c (bcd (digit v.toNat 2))
        p2 := encDigit c (bcd (digit v.toNat 1))
        p3 := encDigit c (bcd (digit v.toNat 0)) }

/-- `41_display_buffer.md` R68: for `v[15] = 1`, slot 0 is the minus pattern and slot `3 - k` the pattern of `digit(mag(v), k)`,
where the magnitude, read as unsigned, is minus the signed value; the word `n = 1` selects the row. For every parameter choice. -/
def Obligations.RenderNegShowsMinusAndThreeDigits : Prop :=
  ∀ (c : Config) (v : Value), v.getLsbD 15 = true →
    decodeSign (BitVec.ofBool (v.getLsbD 15)) = .renderNeg ∧
    renderNeg c v =
      { p0 := minus
        p1 := encDigit c (bcd (digit (- signed16 v).toNat 2))
        p2 := encDigit c (bcd (digit (- signed16 v).toNat 1))
        p3 := encDigit c (bcd (digit (- signed16 v).toNat 0)) }

/-- `30_encoding.md` R56: for a negative value the magnitude, read as unsigned, is minus the signed value, -32768 included. -/
def Obligations.MagnitudeIsUnsignedNegation : Prop :=
  ∀ v : Value, signed16 v < 0 →
    (mag v).toNat = ((2 ^ 16 - 1 - v.toNat) + 1) % 2 ^ 16 ∧ ((mag v).toNat : Int) = - signed16 v

/-- `41_display_buffer.md` R69: RECOMPUTE replaces all four slots by the rendering of `VALUE` and clears `DIRTY`, and writes
nothing else; performed again it changes nothing; and it is the operation of every unreset edge with `REQ = 001`. -/
def Obligations.RecomputeReplacesTheWholeBuffer : Prop :=
  ∀ s : State,
    exec .recompute s = .next { s with regs :=
      { s.regs with buf := render Config.cfg s.regs.value, dirty := false } } ∧
    (∀ t, exec .recompute s = .next t → exec .recompute t = .next t) ∧
    (s.sample.rst = false →
      (s.edgeInstr = .recompute ↔
        s.regs.pendMux = false ∧ s.regs.pendSec = false ∧ s.regs.dirty = true))

/-- `Render` outside the range (`41_display_buffer.md` section "Render", decision D25): a non-negative value shows as its
remainder modulo 10000, a negative one as the minus sign and its magnitude modulo 1000 (leading zeros shown). -/
def Obligations.RenderIsTotal : Prop :=
  ∀ (c : Config) (v : Value),
    (0 ≤ signed16 v → render c v = render c (code16 (signed16 v % 10000))) ∧
    (signed16 v < 0 →
      render c v =
        { p0 := minus
          p1 := encDigit c (bcd (digit ((- signed16 v) % 1000).toNat 2))
          p2 := encDigit c (bcd (digit ((- signed16 v) % 1000).toNat 1))
          p3 := encDigit c (bcd (digit ((- signed16 v) % 1000).toNat 0)) })

/-- `41_display_buffer.md` R71, the round-trip law, for every legal table: decoding the rendering of a value of the range gives
the value; zero takes the non-negative branch. -/
def Obligations.UnrenderOfRenderIsTheValue : Prop :=
  ∀ c : Config, c.Legal →
    (∀ i : Int, -999 ≤ i → i ≤ 9999 → unrender c (render c (code16 i)) = some i) ∧
    render c (code16 0) =
      { p0 := encDigit c 0, p1 := encDigit c 0, p2 := encDigit c 0, p3 := encDigit c 0 }

/-! ### Digit multiplexer -/

/-- MUX_DRIVE (`42_digit_multiplexer.md` section MUX_DRIVE, decision D18): exactly the cursor's line is active, the bus shows the
cursor's slot, nothing else changes. -/
def Obligations.MuxDriveLightsTheCursorsDigit : Prop :=
  ∀ s : State, ∃ com : ComSel,
    exec .muxDrive s = .next { s with regs :=
      { s.regs with comOut := com, segOut := s.regs.memRead s.regs.cursor } } ∧
    ∀ i : Nat, i < 4 → (com.getLsbD i = true ↔ i = s.regs.cursor.toNat)

/-- `42_digit_multiplexer.md` R74: MUX_BLANK puts everything off and changes nothing else; it does not read the buffer; it is
idempotent; format GATE selects it by `g = 0`. -/
def Obligations.MuxBlankPutsEverythingOff : Prop :=
  (∀ s : State, exec .muxBlank s = .next { s with regs := { s.regs with comOut := 0b0000, segOut := 0x00 } }) ∧
  (∀ (s : State) (b : Buf), ∃ t,
    exec .muxBlank s = .next t ∧
    exec .muxBlank { s with regs := { s.regs with buf := b } } = .next { t with regs := { t.regs with buf := b } } ∧
    exec .muxBlank t = .next t) ∧
  decodeGate 0 = .muxBlank

/-- CURSOR_ADV (`42_digit_multiplexer.md` section CURSOR_ADV, decision D16): plus one modulo 4, nothing else. -/
def Obligations.CursorAdvancesModuloFour : Prop :=
  ∀ s : State, ∃ k : Cursor,
    exec .cursorAdv s = .next { s with regs := { s.regs with cursor := k } } ∧
    k.toNat = (s.regs.cursor.toNat + 1) % 4

/-- `42_digit_multiplexer.md` R76: the whole MUX_TICK with `b = BTN_S2`, for every open bit of its word. It is the operation of
every unreset edge with `PEND_MUX = 1`, after which the flag is 1 only if a new pulse is captured at that edge. -/
def Obligations.MuxTickEffect : Prop :=
  ∀ (s : State) (a d : Bool),
    let c' : Countdown :=
      if s.sync.btnS2 = false then Config.cfg.timeout
      else if s.regs.countdown ≠ 0 then s.regs.countdown - 1
      else 0
    (exec (.muxTick a d) s = .next { s with regs :=
      { s.regs with
        countdown := c'
        comOut := if c' ≠ 0 then onehot4 s.regs.cursor else 0b0000
        segOut := if c' ≠ 0 then s.regs.memRead s.regs.cursor else 0x00
        cursor := BitVec.ofNat 2 ((s.regs.cursor.toNat + 1) % 4)
        pendMux := false } }) ∧
    (s.sample.rst = false →
      ((∃ a d, s.edgeInstr = .muxTick a d) ↔ s.regs.pendMux = true) ∧
      (s.regs.pendMux = true → ∃ t, step s = .next t ∧
        (t.regs.pendMux = true ↔ s.sync.muxS2 = true ∧ s.sync.muxS3 = false)))

/-- `42_digit_multiplexer.md` R78: after every MUX_TICK `COM_OUT` is the one-hot word of the cursor before the tick or all off;
two bits are never set. -/
def Obligations.AtMostOneLineAfterATick : Prop :=
  ∀ (s t : State) (a d : Bool), exec (.muxTick a d) s = .next t →
    (t.regs.comOut = onehot4 s.regs.cursor ∨ t.regs.comOut = 0b0000) ∧
    ∀ i j : Nat, t.regs.comOut.getLsbD i = true → t.regs.comOut.getLsbD j = true → i = j

/-- Outputs hold between ticks (`42_digit_multiplexer.md` section Properties, decision D18): an edge that performs neither
MUX_TICK nor RESET leaves both output registers alone. -/
def Obligations.OutputsHoldBetweenTicks : Prop :=
  ∀ s t : State, step s = .next t → s.sample.rst = false → s.regs.pendMux = false →
    t.regs.segOut = s.regs.segOut ∧ t.regs.comOut = s.regs.comOut

/-- Rotation (`42_digit_multiplexer.md` section Properties, marked derived): after any list of mux ticks, whatever the button
samples and the countdown, the cursor has moved by their number modulo 4. -/
def Obligations.CursorRotatesWithEveryTick : Prop :=
  ∀ (c : Config) (bs : List Bool) (r : Regs),
    (bs.foldl (fun r b => r.muxTick c b) r).cursor.toNat = (r.cursor.toNat + bs.length) % 4

/-- Mux ticks with no RECOMPUTE between them show the slots of one buffer in rotation (`20_memory.md` section 7, marked derived): the
tick after `bs.length` others, where it lights a line, lights the line that many places on and shows that slot. Where it lights
none, it is a tick that leaves the countdown at 0. -/
def Obligations.TicksShowOneBufferInRotation : Prop :=
  ∀ (c : Config) (bs : List Bool) (b : Bool) (r : Regs),
    let t := bs.foldl (fun r b => r.muxTick c b) r
    let u := t.muxTick c b
    let k : Cursor := BitVec.ofNat 2 (r.cursor.toNat + bs.length)
    (u.countdown ≠ 0 → u.comOut = onehot4 k ∧ u.segOut = r.memRead k) ∧
    (u.countdown = 0 → u.comOut = 0b0000 ∧ u.segOut = 0x00)

/-- The output case of a tick is the row format GATE selects, applied to the state DEBOUNCE leaves (`30_encoding.md` section 2,
GATE; `43_debounce_timeout.md` section "Order relative to the multiplexer", decision D17). -/
def Obligations.MuxTickRunsDebounceGateCursor : Prop :=
  ∀ (s : State) (a d : Bool), ∃ t1 t2 t3 t,
    exec .debounce s = .next t1 ∧
    exec (decodeGate (BitVec.ofBool (t1.regs.countdown != 0))) t1 = .next t2 ∧
    exec .cursorAdv t2 = .next t3 ∧
    exec (.muxTick a d) s = .next t ∧
    t = { t3 with regs := { t3.regs with pendMux := false } }

/-- `30_encoding.md` R61: what the two calls do to the registers, and that the calls listed for MUX_DRIVE and MUX_BLANK have
exactly their net effect. -/
def Obligations.HalCallsHaveTheNetEffect : Prop :=
  ∀ r : Regs,
    (∀ p, HalCall.apply r (.setSegmentBus p) = { r with segOut := p }) ∧
    (∀ (i : Cursor) (active : Bool), ∃ com : ComSel,
      HalCall.apply r (.setCommonLine i active) = { r with comOut := com } ∧
      com.getLsbD i.toNat = active ∧
      ∀ j, j < 4 → j ≠ i.toNat → com.getLsbD j = r.comOut.getLsbD j) ∧
    halApply (halDrive r) r = r.muxDrive ∧
    halApply halBlank r = r.muxBlank

/-! ### Debounce and timeout -/

/-- `43_debounce_timeout.md` R80: DB_REARM sets the countdown to `TIMEOUT` whatever it was and changes nothing else; the state is
then not timed out; both words `0z` select it. -/
def Obligations.DbRearmSetsTheTimeout : Prop :=
  ∀ (s : State) (z : Bool),
    exec (.dbRearm z) s = .next { s with regs := { s.regs with countdown := Config.cfg.timeout } } ∧
    (∀ t, exec (.dbRearm z) s = .next t → t.regs.timedOut = false) ∧
    decodeDbsel (BitVec.ofBool false ++ BitVec.ofBool z) = .dbRearm z

/-- `43_debounce_timeout.md` R81: DB_COUNT, with the button released and a nonzero countdown, decrements the countdown without
borrow and changes nothing else; it becomes timed out exactly from 1; the word `10` selects it. -/
def Obligations.DbCountDecrements : Prop :=
  ∀ s : State, s.sync.btnS2 = true → s.regs.countdown ≠ 0 →
    decodeDbsel (dbselWord s.sync.btnS2 s.regs.countdown) = .dbCount ∧
    ∃ k : Countdown,
      exec .dbCount s = .next { s with regs := { s.regs with countdown := k } } ∧
      k.toNat + 1 = s.regs.countdown.toNat ∧
      (k = 0 ↔ s.regs.countdown = 1)

/-- `43_debounce_timeout.md` R82: DB_HOLD0, with the button released and the countdown at 0, leaves the state as it is (no wrap
below zero); the word `11` selects it; DEBOUNCE leaves zero only when the button reads pressed. -/
def Obligations.DbHoldKeepsZero : Prop :=
  ∀ s : State, s.sync.btnS2 = true → s.regs.countdown = 0 →
    decodeDbsel (dbselWord s.sync.btnS2 s.regs.countdown) = .dbHold0 ∧
    exec .dbHold0 s = .next s ∧ s.regs.timedOut = true ∧
    exec .debounce s = .next s

/-- `43_debounce_timeout.md` R83: the state table of DEBOUNCE, that nothing but the countdown changes, and that a MUX_TICK
performs it once: the countdown it leaves is DEBOUNCE's. -/
def Obligations.DebounceStateTable : Prop :=
  ∀ s : State, ∃ k : Countdown,
    exec .debounce s = .next { s with regs := { s.regs with countdown := k } } ∧
    (s.sync.btnS2 = false → k = Config.cfg.timeout) ∧
    (s.sync.btnS2 = true → s.regs.countdown ≠ 0 → k.toNat + 1 = s.regs.countdown.toNat) ∧
    (s.sync.btnS2 = true → s.regs.countdown = 0 → k = 0) ∧
    (∀ a d, ∃ t, exec (.muxTick a d) s = .next t ∧ t.regs.countdown = k)

/-- `30_encoding.md` R51: the table of format DBSEL, and that DEBOUNCE performs the case the word `{b, z}` selects, `b = BTN_S2`
and `z = (COUNTDOWN = 0)` before the edge. -/
def Obligations.DebounceRunsTheSelectedCase : Prop :=
  (∀ z : Bool, decodeDbsel (BitVec.ofBool false ++ BitVec.ofBool z) = .dbRearm z) ∧
  decodeDbsel 0b10 = .dbCount ∧
  decodeDbsel 0b11 = .dbHold0 ∧
  ∀ s : State, ∃ t,
    exec (decodeDbsel (BitVec.ofBool s.sync.btnS2 ++ BitVec.ofBool (s.regs.countdown == 0))) s = .next t ∧
    exec .debounce s = .next t

/-- Timeout length and held button (`43_debounce_timeout.md` section Properties, marked derived). From `N > 0`, released ticks count
down; tick `k` is lit for `k < N` and blank from tick `N` on. Counted from a pressed tick, `N` is `TIMEOUT`. After any positive
number of pressed ticks the countdown is at `TIMEOUT` and the display is lit. -/
def Obligations.TimeoutAfterExactlyNTicks : Prop :=
  (∀ (c : Config) (r : Regs) (k : Nat), r.countdown ≠ 0 →
    let t := (Regs.muxTick c true)^[k] r
    t.countdown.toNat = r.countdown.toNat - k ∧
    (1 ≤ k → k < r.countdown.toNat → t.comOut ≠ 0b0000) ∧
    (r.countdown.toNat ≤ k → t.comOut = 0b0000 ∧ t.segOut = blank)) ∧
  (∀ (c : Config) (r : Regs) (k : Nat), c.timeout ≠ 0 →
    let t := (Regs.muxTick c true)^[k] (r.muxTick c false)
    (k < c.timeout.toNat → t.comOut ≠ 0b0000) ∧
    (c.timeout.toNat ≤ k → t.comOut = 0b0000)) ∧
  (∀ (c : Config) (r : Regs) (k : Nat), c.timeout ≠ 0 →
    let t := (Regs.muxTick c false)^[k + 1] r
    t.countdown = c.timeout ∧ t.comOut ≠ 0b0000)

/-! ### Seconds counter -/

/-- `44_counter_clock.md` R87: COUNT_INC, selected by `signed16(VALUE) + 1 <= 9999`, adds one to the signed value without
overflow, equally `(VALUE + 1) mod 2^16`, and changes nothing else; `NEG`, true before, becomes false when the result is 0. -/
def Obligations.CountIncAddsOne : Prop :=
  ∀ s : State, signed16 s.regs.value + 1 ≤ 9999 →
    decodeWrap (wrapWord s.regs.value) = .countInc ∧
    ∃ v : Value,
      exec .countInc s = .next { s with regs := { s.regs with value := v } } ∧
      signed16 v = signed16 s.regs.value + 1 ∧
      v.toNat = (s.regs.value.toNat + 1) % 2 ^ 16 ∧
      (v = 0 → s.regs.neg = true ∧ ({ s.regs with value := v } : Regs).neg = false)

/-- `44_counter_clock.md` R88: COUNT_WRAP, selected by `signed16(VALUE) + 1 > 9999`, stores `VALUE_MIN` (-999 here, for any
parameter in the second clause) and changes nothing else. -/
def Obligations.CountWrapStoresTheMinimum : Prop :=
  (∀ s : State,
    exec .countWrap s = .next { s with regs := { s.regs with value := 0xFC19 } } ∧
    (signed16 s.regs.value + 1 > 9999 → decodeWrap (wrapWord s.regs.value) = .countWrap)) ∧
  (∀ (c : Config) (r : Regs), c.Legal →
    signed16 (r.countWrap c).value = c.valueMin ∧
    ((r.countWrap c).value.getLsbD 15 = true ↔ c.valueMin < 0))

/-- SEC_TICK (`44_counter_clock.md` section SEC_TICK, decision D8): counts with wrap, sets `DIRTY`, clears `PEND_SEC`, and writes
nothing else; defined for all 65536 values (decision D25). -/
def Obligations.SecTickEffect : Prop :=
  ∀ (s : State) (d : Bool), ∃ v : Value,
    exec (.secTick d) s = .next { s with regs := { s.regs with value := v, dirty := true, pendSec := false } } ∧
    (signed16 s.regs.value + 1 > 9999 → signed16 v = -999) ∧
    (signed16 s.regs.value + 1 ≤ 9999 → signed16 v = signed16 s.regs.value + 1)

/-- `30_encoding.md` R53 and R54: the tables of the formats WRAP and SIGN; SEC_TICK counts by the row the word
`w = (signed16(VALUE) + 1 > 9999)` selects, and RECOMPUTE stores the rendering of the row the word `n = VALUE[15]`, the sign,
selects. -/
def Obligations.SelectorsChooseTheCounterAndRenderCase : Prop :=
  (decodeWrap 0 = .countInc ∧ decodeWrap 1 = .countWrap ∧ decodeSign 0 = .renderPos ∧ decodeSign 1 = .renderNeg) ∧
  ∀ (s : State) (d : Bool),
    (∃ t, exec (decodeWrap (BitVec.ofBool (decide (signed16 s.regs.value + 1 > 9999)))) s = .next t ∧
      exec (.secTick d) s = .next { t with regs := { t.regs with dirty := true, pendSec := false } }) ∧
    (∃ u, exec .recompute s = .next u ∧
      (decodeSign (BitVec.ofBool (s.regs.value.getLsbD 15)) = .renderPos ∧
          u.regs.buf = renderPos Config.cfg s.regs.value ∨
        decodeSign (BitVec.ofBool (s.regs.value.getLsbD 15)) = .renderNeg ∧
          u.regs.buf = renderNeg Config.cfg s.regs.value)) ∧
    (s.regs.value.getLsbD 15 = true ↔ signed16 s.regs.value < 0)

/-- Wrap law (`44_counter_clock.md` section Properties, marked derived), for every legal parameter: from the minimum, `k` ticks
give the minimum plus `k` modulo the period `9999 - VALUE_MIN + 1`. -/
def Obligations.WrapLawVisitsEveryValue : Prop :=
  ∀ (c : Config) (r : Regs) (k : Nat), c.Legal → r.value = code16 c.valueMin →
    signed16 ((Regs.secTick c)^[k] r).value = c.valueMin + (k : Int) % (9999 - c.valueMin + 1)

/-- Operations that are cases, performed on their own in any state, the operands their rule excludes among them: the pseudocode is
carried through (log entry 7), and where it has no value the result is some value nothing constrains and everything else stays
(log entries 8 and 9); the renderer's result is on the bench (log entry 3). These are the model's choices. -/
def Obligations.CaseOperationsOnTheirOwn : Prop :=
  ∀ s : State,
    exec .renderPos s = .next { s with bench := { s.bench with rendOut := renderPos Config.cfg s.regs.value } } ∧
    exec .renderNeg s = .next { s with bench := { s.bench with rendOut := renderNeg Config.cfg s.regs.value } } ∧
    exec .dbHold0 s = .next { s with regs := { s.regs with countdown := 0 } } ∧
    (s.regs.countdown ≠ 0 →
      exec .dbCount s = .next { s with regs := { s.regs with countdown := s.regs.countdown - 1 } }) ∧
    (∃ k, exec .dbCount s = .next { s with regs := { s.regs with countdown := k } }) ∧
    (signed16 s.regs.value < 32767 → ∃ v,
      exec .countInc s = .next { s with regs := { s.regs with value := v } } ∧
      signed16 v = signed16 s.regs.value + 1) ∧
    (∃ v, exec .countInc s = .next { s with regs := { s.regs with value := v } })

/-! ### Idle and ports -/

/-- `45_idle_loop.md` R93: IDLE changes nothing; an unreset edge performs it exactly with `REQ = 000`, and then nothing but the
pending flags and the flip-flops changes. -/
def Obligations.IdleChangesNothing : Prop :=
  ∀ s : State,
    exec .idle s = .next s ∧
    (s.sample.rst = false →
      (s.edgeInstr = .idle ↔ s.regs.req = 0b000) ∧
      (s.regs.req = 0b000 → ∃ t, step s = .next t ∧
        t.regs = { s.regs with pendMux := s.sync.em, pendSec := s.sync.es }))

/-- The output ports (`10_state.md` section "Ports (interfaces)", decision D19; `45_idle_loop.md` section "Sleep request", decision
D22): the register bits, inverted or not; and `sleep_o` is 1 exactly when the next unreset edge performs IDLE. -/
def Obligations.PortsFollowTheRegisters : Prop :=
  ∀ (c : Config) (s : State),
    (∀ k, k < 8 → (s.regs.ports c).segO.getLsbD k = (s.regs.segOut.getLsbD k ^^ c.segInvert)) ∧
    (∀ k, k < 4 → (s.regs.ports c).comO.getLsbD k = (s.regs.comOut.getLsbD k ^^ c.comInvert)) ∧
    (s.sample.rst = false → ((s.regs.ports c).sleepO = true ↔ s.edgeInstr = .idle))

/-! ### Synchronizer and arbiter -/

/-- CAPTURE_MUX and CAPTURE_SEC (`60_exceptions.md` section 2, decision D4): a detected edge sets the flag, no edge leaves it, and
nothing else changes (log entry 11). BTN_SYNC (decision D21): the two button flip-flops shift in the sampled level, nothing else
changes (log entry 10). -/
def Obligations.SynchronizerOperations : Prop :=
  ∀ s : State,
    exec .btnSync s = .next { s with sync := { s.sync with btnS1 := s.sample.bn, btnS2 := s.sync.btnS1 } } ∧
    ∃ p q : Bool,
    exec .captureMux s = .next { s with regs := { s.regs with pendMux := p } } ∧
    exec .captureSec s = .next { s with regs := { s.regs with pendSec := q } } ∧
    (s.sync.muxS2 = true ∧ s.sync.muxS3 = false → p = true) ∧
    (¬(s.sync.muxS2 = true ∧ s.sync.muxS3 = false) → p = s.regs.pendMux) ∧
    (s.sync.secS2 = true ∧ s.sync.secS3 = false → q = true) ∧
    (¬(s.sync.secS2 = true ∧ s.sync.secS3 = false) → q = s.regs.pendSec)

/-- The pending flags over an unreset edge (`60_exceptions.md` section 2, decision D4): a capture wins, a flag is cleared by the
service of its own operation only; the mux flag reduces to the detected edge. -/
def Obligations.CaptureWinsOverService : Prop :=
  ∀ s t : State, step s = .next t → s.sample.rst = false →
    t.regs.pendMux = s.sync.em ∧
    (s.sync.es = true → t.regs.pendSec = true) ∧
    (s.sync.es = false →
      (t.regs.pendSec = true ↔ s.regs.pendSec = true ∧ ∀ d, s.edgeInstr ≠ .secTick d))

/-- The arbiter is the table's top-level decode of the request word, in fixed priority (`60_exceptions.md` section 3,
`30_encoding.md` section 2, decision D6). -/
def Obligations.ArbiterIsTheRequestDecode : Prop :=
  ∀ m s d : Bool,
    arb m s d = decodeReq (reqWord m s d) ∧
    arb true s d = .muxTick s d ∧ arb false true d = .secTick d ∧
    arb false false true = .recompute ∧ arb false false false = .idle

/-- MUX_TICK and SEC_TICK commute (`60_exceptions.md` section 3, marked derived). -/
def Obligations.TicksCommute : Prop :=
  ∀ (s : State) (a d e : Bool), ∃ t u v,
    exec (.muxTick a d) s = .next t ∧ exec (.secTick e) t = .next v ∧
    exec (.secTick e) s = .next u ∧ exec (.muxTick a d) u = .next v

/-- The invariant that excludes an overrun holds at reset and every edge keeps it (`60_exceptions.md` section 2, "Overrun", marked
derived). -/
def Obligations.SyncInvariantKept : Prop :=
  SyncInv State.reset.block ∧
  (∀ s t : State, SyncInv s.block → step s = .next t → SyncInv t.block)

/-- No tick is lost or merged at the cycle level (`60_exceptions.md` section 2, "Overrun", marked derived): over any run without
reset, the captured pulses of a source and its pending flag before are as many as its services and its pending flag after. -/
def Obligations.NoTickIsLostOrMerged : Prop :=
  ∀ (c : Config) (xs : List Sample) (b : Block), SyncInv b → NoReset xs →
    (Block.countEdges c (fun _ b => b.sync.em) xs b + b.regs.pendMux.toNat =
      Block.countEdges c (fun _ b => b.regs.pendMux) xs b + (Block.run c xs b).regs.pendMux.toNat) ∧
    (Block.countEdges c (fun _ b => b.sync.es) xs b + b.regs.pendSec.toNat =
      Block.countEdges c (fun _ b => !b.regs.pendMux && b.regs.pendSec) xs b +
        (Block.run c xs b).regs.pendSec.toNat)

/-- Latency (`60_exceptions.md` section 5, marked derived): a mux pulse sampled low, then high at edge `k`, is pending after edge
`k + 2` and served at edge `k + 3` with the button level sampled at edge `k + 1`; a seconds pulse is served at edge `k + 3`, or
at `k + 4` when a MUX_TICK is performed at `k + 3`. -/
def Obligations.CapturedTickIsServedThreeEdgesLater : Prop :=
  ∀ (c : Config) (b : Block) (x0 x1 x2 x3 x4 : Sample), NoReset [x0, x1, x2, x3, x4] →
    (b.sync.muxS1 = false → x0.tm = true →
      (Block.run c [x0, x1, x2] b).regs.pendMux = true ∧
      (Block.run c [x0, x1, x2] b).edgeToken x3 = .m x1.bn) ∧
    (b.sync.secS1 = false → x0.ts = true →
      (Block.run c [x0, x1, x2] b).edgeToken x3 = .s ∨
      ((∃ v, (Block.run c [x0, x1, x2] b).edgeToken x3 = .m v) ∧
        (Block.run c [x0, x1, x2, x3] b).edgeToken x4 = .s))

/-- Progress (`60_exceptions.md` section 6, decision D24; the rate assumption of `70_reset_and_hazards.md` section 3, decision D23):
with rising transitions of each tick line at least 8 clock periods apart, a requested recompute is performed within 8 edges. The
premise is on the sampled levels, where 8 clock periods come to at least 7 edges (the model's reading, log entry 22). -/
def Obligations.RecomputeWithinEightEdges : Prop :=
  ∀ (c : Config) (b : Block) (xs : List Sample), SyncInv b → NoReset xs → xs.length = 8 →
    RisesSpaced (b.muxLine xs) → RisesSpaced (b.secLine xs) → b.regs.dirty = true →
    ∃ k x, xs[k]? = some x ∧ (Block.run c (xs.take k) b).edgeToken x = .r

/-- Progress (`60_exceptions.md` section 6, decision D24). Cycle level: at an unreset edge a pending mux tick is served, a pending
seconds tick is served there or at the next edge, and with `REQ` nonzero some service is performed. Event level, in every infinite
run that is weakly fair: a pending mux tick that no reset discards is served; so is a pending seconds tick once no more mux ticks
are captured; and once nothing is captured, `REQ` comes to 0: every request has been served. -/
def Obligations.RequestsAreServed : Prop :=
  (∀ (c : Config) (b : Block) (x0 x1 : Sample), SyncInv b → NoReset [x0, x1] →
    (b.regs.pendMux = true → b.edgeToken x0 = .m b.sync.btnS2) ∧
    (b.regs.pendSec = true → b.edgeToken x0 = .s ∨ (b.edge c x0).edgeToken x1 = .s) ∧
    (b.regs.req ≠ 0b000 → (b.edgeToken x0).isService = true)) ∧
  (∀ (c : Config) (k : Nat → Token) (r : Nat → Regs) (n : Nat), InfiniteRun c k r → WeaklyFair k r →
    (∀ j, n ≤ j → k j ≠ .rst) →
    ((r n).pendMux = true → ∃ j b, n ≤ j ∧ k j = .m b) ∧
    ((∀ j, n ≤ j → k j ≠ .plusM) → (r n).pendSec = true → ∃ j, n ≤ j ∧ k j = .s) ∧
    ((∀ j, n ≤ j → k j ≠ .plusM ∧ k j ≠ .plusS) → ∃ j, n ≤ j ∧ (r j).req = 0b000))

/-- A tick line high from reset release counts once (`70_reset_and_hazards.md` section 1, marked derived). `tick_mux_a`: three edges
after reset with the line high the tick is pending, the fourth performs MUX_TICK, and however long the line stays high no other
MUX_TICK is performed. `tick_sec_a`: the same, with SEC_TICK performed at the fourth edge or, behind a MUX_TICK, at the fifth; and
`VALUE` has then advanced once. -/
def Obligations.LineHighAtResetReleaseCountsOnce : Prop :=
  (∀ (c : Config) (xs : List Sample), NoReset xs → (∀ x ∈ xs, x.tm = true) → 4 ≤ xs.length →
    (Block.run c (xs.take 3) (Block.reset c)).regs.pendMux = true ∧
    Block.countEdges c (fun _ b => b.regs.pendMux) (xs.take 4) (Block.reset c) = 1 ∧
    Block.countEdges c (fun _ b => b.regs.pendMux) xs (Block.reset c) = 1) ∧
  (∀ (c : Config) (xs : List Sample), NoReset xs → (∀ x ∈ xs, x.ts = true) → 5 ≤ xs.length →
    (Block.run c (xs.take 3) (Block.reset c)).regs.pendSec = true ∧
    ((Block.run c (xs.take 3) (Block.reset c)).regs.pendMux = false →
      Block.countEdges c (fun _ b => !b.regs.pendMux && b.regs.pendSec) (xs.take 4) (Block.reset c) = 1) ∧
    Block.countEdges c (fun _ b => !b.regs.pendMux && b.regs.pendSec) (xs.take 5) (Block.reset c) = 1 ∧
    Block.countEdges c (fun _ b => !b.regs.pendMux && b.regs.pendSec) xs (Block.reset c) = 1 ∧
    (Block.run c xs (Block.reset c)).regs.value = ((Regs.reset c).secTick c).value)

/-! ### Reset -/

/-- RESET (`70_reset_and_hazards.md` section 1, `10_state.md` section 8; decisions D3, D15): every element at its reset value,
nothing of the old state kept; `rst = 1` at an edge does exactly that, whatever is pending. The last clause is the table for every
parameter choice. -/
def Obligations.ResetGivesTheResetTable : Prop :=
  ∀ s : State,
    let r : Regs :=
      { value := 0x0000
        buf := { p0 := 0x7E, p1 := 0x7E, p2 := 0x7E, p3 := 0x7E }
        cursor := 0
        countdown := 10
        segOut := 0x00
        comOut := 0b0000
        pendMux := false
        pendSec := false
        dirty := false }
    let y : Sync :=
      { muxS1 := false, muxS2 := false, muxS3 := false,
        secS1 := false, secS2 := false, secS3 := false,
        btnS1 := true, btnS2 := true }
    exec .reset s = .next { regs := r, sync := y, bench := s.bench } ∧
    (s.sample.rst = true →
      step s = .next { regs := r, sync := y, bench := s.bench.next }) ∧
    State.reset.regs = r ∧ State.reset.sync = y ∧
    ∀ (c : Config) (x : Sample) (b : Block), x.rst = true →
      b.edge c x =
        { regs :=
            { r with
              value := code16 c.valueInit
              buf := render c (code16 c.valueInit)
              countdown := c.timeout }
          sync := y }

/-! ### Invariants of the whole machine -/

/-- The invariants hold in the reset state, for every legal parameter choice (`10_state.md` section 7, marked derived). -/
def Obligations.InvariantsHoldAtReset : Prop :=
  (∀ c : Config, c.Legal → Inv c (Regs.reset c)) ∧ Inv Config.cfg State.reset.regs

/-- Every edge keeps the invariants, from every state that meets them (`10_state.md` section 7, marked derived). -/
def Obligations.StepKeepsTheInvariants : Prop :=
  ∀ s t : State, Inv Config.cfg s.regs → step s = .next t → Inv Config.cfg t.regs

/-- The same for every legal parameter choice, and for every enabled step of the event level (`10_state.md` section 7, marked
derived; `60_exceptions.md` section 6, decision D24). -/
def Obligations.EveryLegalBlockKeepsTheInvariants : Prop :=
  ∀ c : Config, c.Legal →
    (∀ (x : Sample) (b : Block), Inv c b.regs → Inv c (b.edge c x).regs) ∧
    (∀ (k : Token) (r r' : Regs), Inv c r → k.fire c r = some r' → Inv c r')

/-- The core concurrency invariant (`20_memory.md` section 7, marked derived): after any run from reset the buffer is the rendering
of one value `VALUE` held at some earlier point of that run; it never mixes the digits of two values. -/
def Obligations.BufferNeverMixesTwoValues : Prop :=
  ∀ (c : Config) (xs : List Sample), ∃ k, k ≤ xs.length ∧
    (Block.run c xs (Block.reset c)).regs.buf =
      render c (Block.run c (xs.take k) (Block.reset c)).regs.value

/-- Every run of STEP is a run of the event-level system (`60_exceptions.md` section 6, decision D24): replacing each edge by its
operation's token and then `+m`, `+s` for the captures gives a legal trace that ends in the same nine elements. -/
def Obligations.CycleLevelRefinesEventLevel : Prop :=
  (∀ (c : Config) (xs : List Sample) (b : Block),
    runTrace c (Block.trace c xs b) b.regs = some (Block.run c xs b).regs) ∧
  (∀ s t : State, step s = .next t →
    runTrace Config.cfg (s.block.edgeTrace s.sample) s.regs = some t.regs)

/-- The pseudo-tokens stand for their expansions (`30_encoding.md` section 5, decision D26): `T0` and `T1` are a captured mux pulse
and its service, always legal, with the button pressed or released; `SEC`, where no mux tick is pending, is a whole seconds
tick with its recompute. `X*n` runs `X` `n` times, for every token or pseudo-token `X` (the last clause but one; the last is its
instance that the timeout tests use). -/
def Obligations.PseudoTokensRunTheirExpansion : Prop :=
  ∀ (c : Config) (r : Regs),
    runTrace c Pseudo.t0.expand r = some (r.muxTick c false) ∧
    runTrace c Pseudo.t1.expand r = some (r.muxTick c true) ∧
    (r.pendMux = false →
      runTrace c Pseudo.sec.expand r = some ((r.secTick c).recompute c)) ∧
    (∀ (x : Pseudo) (n : Nat),
      runTrace c (Pseudo.times x n).expand r = (fun o => o.bind (runTrace c x.expand))^[n] (some r)) ∧
    (∀ n, runTrace c (Pseudo.times .t1 n).expand r = some ((Regs.muxTick c true)^[n] r))

/-! ### Frames -/

/-- Frames of the operations that are parts of another: the encoder's and the renderer's change no element of the block (the bench:
log entry 3); the debounce operations write only the countdown, the output cases only the output pair, CURSOR_ADV only the cursor,
the counter cases only `VALUE`, the captures only their flag, BTN_SYNC only the button flip-flops. None of them stores to the
buffer. -/
def Obligations.PartsOfOperationsFrame : Prop :=
  ∀ (i : Instr) (s t : State), exec i s = .next t →
    (i.format = .bcd ∨ i.format = .sign ∨ i = .encMinus ∨ i = .encBlank →
      t.regs = s.regs ∧ t.sync = s.sync ∧ t.bench.inputs = s.bench.inputs ∧ t.bench.source = s.bench.source) ∧
    (i.format = .dbsel ∨ i = .debounce → t = { s with regs := { s.regs with countdown := t.regs.countdown } }) ∧
    (i.format = .gate →
      t = { s with regs := { s.regs with segOut := t.regs.segOut, comOut := t.regs.comOut } }) ∧
    (i = .cursorAdv → t = { s with regs := { s.regs with cursor := t.regs.cursor } }) ∧
    (i.format = .wrap → t = { s with regs := { s.regs with value := t.regs.value } }) ∧
    (i = .captureMux → t = { s with regs := { s.regs with pendMux := t.regs.pendMux } }) ∧
    (i = .captureSec → t = { s with regs := { s.regs with pendSec := t.regs.pendSec } }) ∧
    (i = .btnSync → t = { s with sync := { s.sync with btnS1 := t.sync.btnS1, btnS2 := t.sync.btnS2 } }) ∧
    (i.format ≠ .req → i.format ≠ .rst → i ≠ .step → ∀ a, t.regs.memRead a = s.regs.memRead a)

/-- Ownership (`10_state.md` section 6): of the top-level operations MUX_TICK alone writes the countdown, the cursor and the
outputs, SEC_TICK alone writes `VALUE`, RECOMPUTE alone writes the buffer; no operation touches the flip-flops or the inputs, and
`DIRTY` is written by SEC_TICK and RECOMPUTE alone. -/
def Obligations.EachContextWritesItsOwnState : Prop :=
  ∀ (i : Instr) (s t : State), i.format = .req → exec i s = .next t →
    ((∀ a d, i ≠ .muxTick a d) →
      t.regs.countdown = s.regs.countdown ∧ t.regs.cursor = s.regs.cursor ∧
      t.regs.segOut = s.regs.segOut ∧ t.regs.comOut = s.regs.comOut ∧ t.regs.pendMux = s.regs.pendMux) ∧
    ((∀ d, i ≠ .secTick d) → t.regs.value = s.regs.value ∧ t.regs.pendSec = s.regs.pendSec) ∧
    (i ≠ .recompute → t.regs.buf = s.regs.buf ∧ ∀ a, t.regs.memRead a = s.regs.memRead a) ∧
    ((∀ d, i ≠ .secTick d) → i ≠ .recompute → t.regs.dirty = s.regs.dirty) ∧
    t.sync = s.sync ∧ t.bench = s.bench
end

