-- ==== Sys2Proof/Laws/State.lean ====
section
/-! SUPPORT. One lemma per field per update of the state records, true by rfl, so that no later proof unfolds a record update. -/

namespace Sys2Proof.Machine

/-! `setValue` -/

@[simp] theorem Regs.setValue_value (r : Regs) (v : Value) : (r.setValue v).value = v := rfl
@[simp] theorem Regs.setValue_buf (r : Regs) (v : Value) : (r.setValue v).buf = r.buf := rfl
@[simp] theorem Regs.setValue_cursor (r : Regs) (v : Value) : (r.setValue v).cursor = r.cursor := rfl
@[simp] theorem Regs.setValue_countdown (r : Regs) (v : Value) : (r.setValue v).countdown = r.countdown := rfl
@[simp] theorem Regs.setValue_segOut (r : Regs) (v : Value) : (r.setValue v).segOut = r.segOut := rfl
@[simp] theorem Regs.setValue_comOut (r : Regs) (v : Value) : (r.setValue v).comOut = r.comOut := rfl
@[simp] theorem Regs.setValue_pendMux (r : Regs) (v : Value) : (r.setValue v).pendMux = r.pendMux := rfl
@[simp] theorem Regs.setValue_pendSec (r : Regs) (v : Value) : (r.setValue v).pendSec = r.pendSec := rfl
@[simp] theorem Regs.setValue_dirty (r : Regs) (v : Value) : (r.setValue v).dirty = r.dirty := rfl

/-! `setCountdown` -/

@[simp] theorem Regs.setCountdown_value (r : Regs) (k : Countdown) : (r.setCountdown k).value = r.value := rfl
@[simp] theorem Regs.setCountdown_buf (r : Regs) (k : Countdown) : (r.setCountdown k).buf = r.buf := rfl
@[simp] theorem Regs.setCountdown_cursor (r : Regs) (k : Countdown) : (r.setCountdown k).cursor = r.cursor := rfl
@[simp] theorem Regs.setCountdown_countdown (r : Regs) (k : Countdown) : (r.setCountdown k).countdown = k := rfl
@[simp] theorem Regs.setCountdown_segOut (r : Regs) (k : Countdown) : (r.setCountdown k).segOut = r.segOut := rfl
@[simp] theorem Regs.setCountdown_comOut (r : Regs) (k : Countdown) : (r.setCountdown k).comOut = r.comOut := rfl
@[simp] theorem Regs.setCountdown_pendMux (r : Regs) (k : Countdown) : (r.setCountdown k).pendMux = r.pendMux := rfl
@[simp] theorem Regs.setCountdown_pendSec (r : Regs) (k : Countdown) : (r.setCountdown k).pendSec = r.pendSec := rfl
@[simp] theorem Regs.setCountdown_dirty (r : Regs) (k : Countdown) : (r.setCountdown k).dirty = r.dirty := rfl

/-! `setCursor` -/

@[simp] theorem Regs.setCursor_value (r : Regs) (k : Cursor) : (r.setCursor k).value = r.value := rfl
@[simp] theorem Regs.setCursor_buf (r : Regs) (k : Cursor) : (r.setCursor k).buf = r.buf := rfl
@[simp] theorem Regs.setCursor_cursor (r : Regs) (k : Cursor) : (r.setCursor k).cursor = k := rfl
@[simp] theorem Regs.setCursor_countdown (r : Regs) (k : Cursor) : (r.setCursor k).countdown = r.countdown := rfl
@[simp] theorem Regs.setCursor_segOut (r : Regs) (k : Cursor) : (r.setCursor k).segOut = r.segOut := rfl
@[simp] theorem Regs.setCursor_comOut (r : Regs) (k : Cursor) : (r.setCursor k).comOut = r.comOut := rfl
@[simp] theorem Regs.setCursor_pendMux (r : Regs) (k : Cursor) : (r.setCursor k).pendMux = r.pendMux := rfl
@[simp] theorem Regs.setCursor_pendSec (r : Regs) (k : Cursor) : (r.setCursor k).pendSec = r.pendSec := rfl
@[simp] theorem Regs.setCursor_dirty (r : Regs) (k : Cursor) : (r.setCursor k).dirty = r.dirty := rfl

/-! `setDirty` -/

@[simp] theorem Regs.setDirty_value (r : Regs) (d : Bool) : (r.setDirty d).value = r.value := rfl
@[simp] theorem Regs.setDirty_buf (r : Regs) (d : Bool) : (r.setDirty d).buf = r.buf := rfl
@[simp] theorem Regs.setDirty_cursor (r : Regs) (d : Bool) : (r.setDirty d).cursor = r.cursor := rfl
@[simp] theorem Regs.setDirty_countdown (r : Regs) (d : Bool) : (r.setDirty d).countdown = r.countdown := rfl
@[simp] theorem Regs.setDirty_segOut (r : Regs) (d : Bool) : (r.setDirty d).segOut = r.segOut := rfl
@[simp] theorem Regs.setDirty_comOut (r : Regs) (d : Bool) : (r.setDirty d).comOut = r.comOut := rfl
@[simp] theorem Regs.setDirty_pendMux (r : Regs) (d : Bool) : (r.setDirty d).pendMux = r.pendMux := rfl
@[simp] theorem Regs.setDirty_pendSec (r : Regs) (d : Bool) : (r.setDirty d).pendSec = r.pendSec := rfl
@[simp] theorem Regs.setDirty_dirty (r : Regs) (d : Bool) : (r.setDirty d).dirty = d := rfl

/-! `setPendMux` -/

@[simp] theorem Regs.setPendMux_value (r : Regs) (p : Bool) : (r.setPendMux p).value = r.value := rfl
@[simp] theorem Regs.setPendMux_buf (r : Regs) (p : Bool) : (r.setPendMux p).buf = r.buf := rfl
@[simp] theorem Regs.setPendMux_cursor (r : Regs) (p : Bool) : (r.setPendMux p).cursor = r.cursor := rfl
@[simp] theorem Regs.setPendMux_countdown (r : Regs) (p : Bool) : (r.setPendMux p).countdown = r.countdown := rfl
@[simp] theorem Regs.setPendMux_segOut (r : Regs) (p : Bool) : (r.setPendMux p).segOut = r.segOut := rfl
@[simp] theorem Regs.setPendMux_comOut (r : Regs) (p : Bool) : (r.setPendMux p).comOut = r.comOut := rfl
@[simp] theorem Regs.setPendMux_pendMux (r : Regs) (p : Bool) : (r.setPendMux p).pendMux = p := rfl
@[simp] theorem Regs.setPendMux_pendSec (r : Regs) (p : Bool) : (r.setPendMux p).pendSec = r.pendSec := rfl
@[simp] theorem Regs.setPendMux_dirty (r : Regs) (p : Bool) : (r.setPendMux p).dirty = r.dirty := rfl

/-! `setPendSec` -/

@[simp] theorem Regs.setPendSec_value (r : Regs) (p : Bool) : (r.setPendSec p).value = r.value := rfl
@[simp] theorem Regs.setPendSec_buf (r : Regs) (p : Bool) : (r.setPendSec p).buf = r.buf := rfl
@[simp] theorem Regs.setPendSec_cursor (r : Regs) (p : Bool) : (r.setPendSec p).cursor = r.cursor := rfl
@[simp] theorem Regs.setPendSec_countdown (r : Regs) (p : Bool) : (r.setPendSec p).countdown = r.countdown := rfl
@[simp] theorem Regs.setPendSec_segOut (r : Regs) (p : Bool) : (r.setPendSec p).segOut = r.segOut := rfl
@[simp] theorem Regs.setPendSec_comOut (r : Regs) (p : Bool) : (r.setPendSec p).comOut = r.comOut := rfl
@[simp] theorem Regs.setPendSec_pendMux (r : Regs) (p : Bool) : (r.setPendSec p).pendMux = r.pendMux := rfl
@[simp] theorem Regs.setPendSec_pendSec (r : Regs) (p : Bool) : (r.setPendSec p).pendSec = p := rfl
@[simp] theorem Regs.setPendSec_dirty (r : Regs) (p : Bool) : (r.setPendSec p).dirty = r.dirty := rfl

/-! `memWrite` -/

@[simp] theorem Regs.memWrite_value (r : Regs) (b : Buf) : (r.memWrite b).value = r.value := rfl
@[simp] theorem Regs.memWrite_buf (r : Regs) (b : Buf) : (r.memWrite b).buf = b := rfl
@[simp] theorem Regs.memWrite_cursor (r : Regs) (b : Buf) : (r.memWrite b).cursor = r.cursor := rfl
@[simp] theorem Regs.memWrite_countdown (r : Regs) (b : Buf) : (r.memWrite b).countdown = r.countdown := rfl
@[simp] theorem Regs.memWrite_segOut (r : Regs) (b : Buf) : (r.memWrite b).segOut = r.segOut := rfl
@[simp] theorem Regs.memWrite_comOut (r : Regs) (b : Buf) : (r.memWrite b).comOut = r.comOut := rfl
@[simp] theorem Regs.memWrite_pendMux (r : Regs) (b : Buf) : (r.memWrite b).pendMux = r.pendMux := rfl
@[simp] theorem Regs.memWrite_pendSec (r : Regs) (b : Buf) : (r.memWrite b).pendSec = r.pendSec := rfl
@[simp] theorem Regs.memWrite_dirty (r : Regs) (b : Buf) : (r.memWrite b).dirty = r.dirty := rfl

/-! `setOutputs` -/

@[simp] theorem Regs.setOutputs_value (r : Regs) (k : ComSel) (p : SegPat) : (r.setOutputs k p).value = r.value := rfl
@[simp] theorem Regs.setOutputs_buf (r : Regs) (k : ComSel) (p : SegPat) : (r.setOutputs k p).buf = r.buf := rfl
@[simp] theorem Regs.setOutputs_cursor (r : Regs) (k : ComSel) (p : SegPat) : (r.setOutputs k p).cursor = r.cursor := rfl
@[simp] theorem Regs.setOutputs_countdown (r : Regs) (k : ComSel) (p : SegPat) : (r.setOutputs k p).countdown = r.countdown := rfl
@[simp] theorem Regs.setOutputs_segOut (r : Regs) (k : ComSel) (p : SegPat) : (r.setOutputs k p).segOut = p := rfl
@[simp] theorem Regs.setOutputs_comOut (r : Regs) (k : ComSel) (p : SegPat) : (r.setOutputs k p).comOut = k := rfl
@[simp] theorem Regs.setOutputs_pendMux (r : Regs) (k : ComSel) (p : SegPat) : (r.setOutputs k p).pendMux = r.pendMux := rfl
@[simp] theorem Regs.setOutputs_pendSec (r : Regs) (k : ComSel) (p : SegPat) : (r.setOutputs k p).pendSec = r.pendSec := rfl
@[simp] theorem Regs.setOutputs_dirty (r : Regs) (k : ComSel) (p : SegPat) : (r.setOutputs k p).dirty = r.dirty := rfl

/-! `withRegs` -/

@[simp] theorem State.withRegs_regs (s : State) (r : Regs) : (s.withRegs r).regs = r := rfl
@[simp] theorem State.withRegs_sync (s : State) (r : Regs) : (s.withRegs r).sync = s.sync := rfl
@[simp] theorem State.withRegs_bench (s : State) (r : Regs) : (s.withRegs r).bench = s.bench := rfl
@[simp] theorem State.withRegs_inputs (s : State) (r : Regs) : (s.withRegs r).bench.inputs = s.bench.inputs := rfl
@[simp] theorem State.withRegs_source (s : State) (r : Regs) : (s.withRegs r).bench.source = s.bench.source := rfl
@[simp] theorem State.withRegs_encOut (s : State) (r : Regs) : (s.withRegs r).bench.encOut = s.bench.encOut := rfl
@[simp] theorem State.withRegs_rendOut (s : State) (r : Regs) : (s.withRegs r).bench.rendOut = s.bench.rendOut := rfl

/-! `withSync` -/

@[simp] theorem State.withSync_regs (s : State) (y : Sync) : (s.withSync y).regs = s.regs := rfl
@[simp] theorem State.withSync_sync (s : State) (y : Sync) : (s.withSync y).sync = y := rfl
@[simp] theorem State.withSync_bench (s : State) (y : Sync) : (s.withSync y).bench = s.bench := rfl
@[simp] theorem State.withSync_inputs (s : State) (y : Sync) : (s.withSync y).bench.inputs = s.bench.inputs := rfl
@[simp] theorem State.withSync_source (s : State) (y : Sync) : (s.withSync y).bench.source = s.bench.source := rfl
@[simp] theorem State.withSync_encOut (s : State) (y : Sync) : (s.withSync y).bench.encOut = s.bench.encOut := rfl
@[simp] theorem State.withSync_rendOut (s : State) (y : Sync) : (s.withSync y).bench.rendOut = s.bench.rendOut := rfl

/-! `withBlock` -/

@[simp] theorem State.withBlock_regs (s : State) (b : Block) : (s.withBlock b).regs = b.regs := rfl
@[simp] theorem State.withBlock_sync (s : State) (b : Block) : (s.withBlock b).sync = b.sync := rfl
@[simp] theorem State.withBlock_bench (s : State) (b : Block) : (s.withBlock b).bench = s.bench := rfl
@[simp] theorem State.withBlock_inputs (s : State) (b : Block) : (s.withBlock b).bench.inputs = s.bench.inputs := rfl
@[simp] theorem State.withBlock_source (s : State) (b : Block) : (s.withBlock b).bench.source = s.bench.source := rfl
@[simp] theorem State.withBlock_encOut (s : State) (b : Block) : (s.withBlock b).bench.encOut = s.bench.encOut := rfl
@[simp] theorem State.withBlock_rendOut (s : State) (b : Block) : (s.withBlock b).bench.rendOut = s.bench.rendOut := rfl

/-! `showPattern` -/

@[simp] theorem State.showPattern_regs (s : State) (p : SegPat) : (s.showPattern p).regs = s.regs := rfl
@[simp] theorem State.showPattern_sync (s : State) (p : SegPat) : (s.showPattern p).sync = s.sync := rfl
@[simp] theorem State.showPattern_inputs (s : State) (p : SegPat) : (s.showPattern p).bench.inputs = s.bench.inputs := rfl
@[simp] theorem State.showPattern_source (s : State) (p : SegPat) : (s.showPattern p).bench.source = s.bench.source := rfl
@[simp] theorem State.showPattern_encOut (s : State) (p : SegPat) : (s.showPattern p).bench.encOut = p := rfl
@[simp] theorem State.showPattern_rendOut (s : State) (p : SegPat) : (s.showPattern p).bench.rendOut = s.bench.rendOut := rfl

/-! `showBuf` -/

@[simp] theorem State.showBuf_regs (s : State) (b : Buf) : (s.showBuf b).regs = s.regs := rfl
@[simp] theorem State.showBuf_sync (s : State) (b : Buf) : (s.showBuf b).sync = s.sync := rfl
@[simp] theorem State.showBuf_inputs (s : State) (b : Buf) : (s.showBuf b).bench.inputs = s.bench.inputs := rfl
@[simp] theorem State.showBuf_source (s : State) (b : Buf) : (s.showBuf b).bench.source = s.bench.source := rfl
@[simp] theorem State.showBuf_encOut (s : State) (b : Buf) : (s.showBuf b).bench.encOut = s.bench.encOut := rfl
@[simp] theorem State.showBuf_rendOut (s : State) (b : Buf) : (s.showBuf b).bench.rendOut = b := rfl

/-! `endEdge` -/

@[simp] theorem State.endEdge_regs (s : State) : (s.endEdge).regs = s.regs := rfl
@[simp] theorem State.endEdge_sync (s : State) : (s.endEdge).sync = s.sync := rfl
@[simp] theorem State.endEdge_bench (s : State) : (s.endEdge).bench = s.bench.next := rfl
@[simp] theorem State.endEdge_block (s : State) : (s.endEdge).block = s.block := rfl

/-! `Bench.sample` and `Bench.next` -/

theorem Bench.sample_nil {e : Bench} (h : e.inputs = []) : e.sample = Config.freeSample e.source := by simp [Bench.sample, h]
theorem Bench.sample_cons {e : Bench} {x : Sample} {xs : List Sample} (h : e.inputs = x :: xs) : e.sample = x := by
  simp [Bench.sample, h]
theorem Bench.next_nil {e : Bench} (h : e.inputs = []) : e.next = { e with source := Config.nextSource e.source } := by
  simp [Bench.next, h]
theorem Bench.next_cons {e : Bench} {x : Sample} {xs : List Sample} (h : e.inputs = x :: xs) :
    e.next = { e with inputs := xs } := by simp [Bench.next, h]
@[simp] theorem Bench.next_inputs (e : Bench) : e.next.inputs = e.inputs.tail := by
  unfold Bench.next; split <;> simp_all
@[simp] theorem Bench.next_encOut (e : Bench) : e.next.encOut = e.encOut := by unfold Bench.next; split <;> rfl
@[simp] theorem Bench.next_rendOut (e : Bench) : e.next.rendOut = e.rendOut := by unfold Bench.next; split <;> rfl

/-! `shiftMux` -/

@[simp] theorem Sync.shiftMux_muxS1 (y : Sync) (tm : Bool) : (y.shiftMux tm).muxS1 = tm := rfl
@[simp] theorem Sync.shiftMux_muxS2 (y : Sync) (tm : Bool) : (y.shiftMux tm).muxS2 = y.muxS1 := rfl
@[simp] theorem Sync.shiftMux_muxS3 (y : Sync) (tm : Bool) : (y.shiftMux tm).muxS3 = y.muxS2 := rfl
@[simp] theorem Sync.shiftMux_secS1 (y : Sync) (tm : Bool) : (y.shiftMux tm).secS1 = y.secS1 := rfl
@[simp] theorem Sync.shiftMux_secS2 (y : Sync) (tm : Bool) : (y.shiftMux tm).secS2 = y.secS2 := rfl
@[simp] theorem Sync.shiftMux_secS3 (y : Sync) (tm : Bool) : (y.shiftMux tm).secS3 = y.secS3 := rfl
@[simp] theorem Sync.shiftMux_btnS1 (y : Sync) (tm : Bool) : (y.shiftMux tm).btnS1 = y.btnS1 := rfl
@[simp] theorem Sync.shiftMux_btnS2 (y : Sync) (tm : Bool) : (y.shiftMux tm).btnS2 = y.btnS2 := rfl

/-! `shiftSec` -/

@[simp] theorem Sync.shiftSec_muxS1 (y : Sync) (ts : Bool) : (y.shiftSec ts).muxS1 = y.muxS1 := rfl
@[simp] theorem Sync.shiftSec_muxS2 (y : Sync) (ts : Bool) : (y.shiftSec ts).muxS2 = y.muxS2 := rfl
@[simp] theorem Sync.shiftSec_muxS3 (y : Sync) (ts : Bool) : (y.shiftSec ts).muxS3 = y.muxS3 := rfl
@[simp] theorem Sync.shiftSec_secS1 (y : Sync) (ts : Bool) : (y.shiftSec ts).secS1 = ts := rfl
@[simp] theorem Sync.shiftSec_secS2 (y : Sync) (ts : Bool) : (y.shiftSec ts).secS2 = y.secS1 := rfl
@[simp] theorem Sync.shiftSec_secS3 (y : Sync) (ts : Bool) : (y.shiftSec ts).secS3 = y.secS2 := rfl
@[simp] theorem Sync.shiftSec_btnS1 (y : Sync) (ts : Bool) : (y.shiftSec ts).btnS1 = y.btnS1 := rfl
@[simp] theorem Sync.shiftSec_btnS2 (y : Sync) (ts : Bool) : (y.shiftSec ts).btnS2 = y.btnS2 := rfl

/-! `shiftBtn` -/

@[simp] theorem Sync.shiftBtn_muxS1 (y : Sync) (bn : Bool) : (y.shiftBtn bn).muxS1 = y.muxS1 := rfl
@[simp] theorem Sync.shiftBtn_muxS2 (y : Sync) (bn : Bool) : (y.shiftBtn bn).muxS2 = y.muxS2 := rfl
@[simp] theorem Sync.shiftBtn_muxS3 (y : Sync) (bn : Bool) : (y.shiftBtn bn).muxS3 = y.muxS3 := rfl
@[simp] theorem Sync.shiftBtn_secS1 (y : Sync) (bn : Bool) : (y.shiftBtn bn).secS1 = y.secS1 := rfl
@[simp] theorem Sync.shiftBtn_secS2 (y : Sync) (bn : Bool) : (y.shiftBtn bn).secS2 = y.secS2 := rfl
@[simp] theorem Sync.shiftBtn_secS3 (y : Sync) (bn : Bool) : (y.shiftBtn bn).secS3 = y.secS3 := rfl
@[simp] theorem Sync.shiftBtn_btnS1 (y : Sync) (bn : Bool) : (y.shiftBtn bn).btnS1 = bn := rfl
@[simp] theorem Sync.shiftBtn_btnS2 (y : Sync) (bn : Bool) : (y.shiftBtn bn).btnS2 = y.btnS1 := rfl

/-! The block view -/

@[simp] theorem State.block_regs (s : State) : s.block.regs = s.regs := rfl
@[simp] theorem State.block_sync (s : State) : s.block.sync = s.sync := rfl
@[simp] theorem State.withBlock_block (s : State) (b : Block) : (s.withBlock b).block = b := rfl

end Sys2Proof.Machine
end

