-- ==== Sys2Proof/Laws/Ops.lean ====
section
/-! SUPPORT. What each shared operation can do, said once: operands, encoder, renderer, the registers' operations, one edge. Later
proofs cite these instead of unfolding the definitions. -/

namespace Sys2Proof.Machine

/-! ### Operands -/

/-- The cursor has four values. -/
theorem cursor_cases (k : Cursor) : k = 0 ∨ k = 1 ∨ k = 2 ∨ k = 3 := by
  revert k; decide

/-- A one-hot word is not dark. -/
theorem onehot4_ne_zero (k : Cursor) : onehot4 k ≠ 0b0000 := by
  revert k; decide

/-- A one-hot word is one of the legal words of format COMSEL. -/
theorem onehot4_mem (k : Cursor) :
    onehot4 k ∈ [0b0000#4, 0b0001#4, 0b0010#4, 0b0100#4, 0b1000#4] := by
  revert k; decide

/-- The sign bit is the sign. -/
theorem msb_iff_neg (v : Value) : v.getLsbD 15 = true ↔ signed16 v < 0 := by
  unfold signed16
  have h : v.getLsbD 15 = v.msb := (BitVec.msb_eq_getLsbD_last v).symm
  rw [h, BitVec.toInt_eq_msb_cond]
  have := v.isLt
  split <;> simp_all

/-- Coding and decoding an integer of the 16-bit range. -/
theorem signed16_code16 {i : Int} (h : -32768 ≤ i) (h' : i ≤ 32767) : signed16 (code16 i) = i := by
  unfold signed16 code16
  rw [BitVec.toInt_ofInt]
  apply Int.bmod_eq_of_le <;> omega

/-- The code of a word's signed value is the word. -/
theorem code16_signed16 (v : Value) : code16 (signed16 v) = v := BitVec.ofInt_toInt

/-- The signed value of a 16-bit word is in range. -/
theorem signed16_bounds (v : Value) : -32768 ≤ signed16 v ∧ signed16 v ≤ 32767 := by
  have h1 := BitVec.le_toInt v
  have h2 := BitVec.toInt_lt (x := v)
  unfold signed16
  constructor <;> omega

/-- A non-negative word read as unsigned. -/
theorem toNat_of_nonneg {v : Value} (h : 0 ≤ signed16 v) : (v.toNat : Int) = signed16 v := by
  unfold signed16 at *
  rw [BitVec.toInt_eq_toNat_cond] at *
  have := v.isLt
  split at h <;> split <;> omega

/-- The magnitude of a negative word, read as unsigned, is minus its signed value (-32768 included). -/
theorem mag_toNat_of_neg {v : Value} (h : signed16 v < 0) : ((mag v).toNat : Int) = - signed16 v := by
  unfold signed16 mag at *
  rw [BitVec.toInt_eq_toNat_cond] at *
  have := v.isLt
  rw [BitVec.toNat_add, BitVec.toNat_not]
  have one : (1 : Value).toNat = 1 := rfl
  split at h <;> split <;> omega

/-- A digit is below ten. -/
theorem digit_lt (m k : Nat) : digit m k < 10 := Nat.mod_lt _ (by decide)

/-- A digit below ten keeps its value in format BCD. -/
theorem bcd_toNat {d : Nat} (h : d < 10) : (bcd d).toNat = d := by
  unfold bcd
  rw [BitVec.toNat_ofNat]
  omega

/-! ### Encoder and renderer -/

/-- ENC_DIGIT of a digit is the table's entry. -/
theorem encDigit_of_lt (c : Config) {d : Bcd} (h : d.toNat < 10) : encDigit c d = c.segTable[d.toNat] := by
  unfold encDigit
  rw [dif_pos h]

/-- ENC_DIGIT of a reserved code is blank. -/
theorem encDigit_of_ge (c : Config) {d : Bcd} (h : 10 ≤ d.toNat) : encDigit c d = blank := by
  unfold encDigit
  rw [dif_neg (by omega)]

/-- ENC_DIGIT of a decimal digit is in the table. -/
theorem encDigit_mem (c : Config) {d : Nat} (h : d < 10) : encDigit c (bcd d) ∈ c.segTable.toList := by
  have hd : (bcd d).toNat < 10 := by rw [bcd_toNat h]; exact h
  rw [encDigit_of_lt c hd]
  exact Vector.mem_toList_iff.mpr (Vector.getElem_mem _)

/-- RENDER_POS by digits. -/
theorem renderPos_eq (c : Config) (v : Value) : renderPos c v =
    { p0 := encDigit c (bcd (digit v.toNat 3)), p1 := encDigit c (bcd (digit v.toNat 2)),
      p2 := encDigit c (bcd (digit v.toNat 1)), p3 := encDigit c (bcd (digit v.toNat 0)) } := by
  simp [renderPos, digit, Nat.div_div_eq_div_mul]

/-- RENDER_NEG by digits of the magnitude. -/
theorem renderNeg_eq (c : Config) (v : Value) : renderNeg c v =
    { p0 := minus, p1 := encDigit c (bcd (digit (mag v).toNat 2)),
      p2 := encDigit c (bcd (digit (mag v).toNat 1)), p3 := encDigit c (bcd (digit (mag v).toNat 0)) } := by
  simp [renderNeg, digit, encMinusPattern, Nat.div_div_eq_div_mul]

/-- `Render` of a non-negative word. -/
theorem render_of_nonneg (c : Config) {v : Value} (h : 0 ≤ signed16 v) : render c v = renderPos c v := by
  unfold render
  rw [if_neg]
  rw [msb_iff_neg]
  omega

/-- `Render` of a negative word. -/
theorem render_of_neg (c : Config) {v : Value} (h : signed16 v < 0) : render c v = renderNeg c v := by
  unfold render
  rw [if_pos]
  rwa [msb_iff_neg]

/-- The three low slots of a rendering are table entries. -/
theorem render_low_slots (c : Config) (v : Value) :
    (render c v).p1 ∈ c.segTable.toList ∧ (render c v).p2 ∈ c.segTable.toList ∧
      (render c v).p3 ∈ c.segTable.toList := by
  by_cases h : signed16 v < 0
  · rw [render_of_neg c h, renderNeg_eq]
    exact ⟨encDigit_mem c (digit_lt _ _), encDigit_mem c (digit_lt _ _), encDigit_mem c (digit_lt _ _)⟩
  · rw [render_of_nonneg c (by omega), renderPos_eq]
    exact ⟨encDigit_mem c (digit_lt _ _), encDigit_mem c (digit_lt _ _), encDigit_mem c (digit_lt _ _)⟩

/-- Slot 0 of a rendering: the minus pattern for a negative value, else a table entry. -/
theorem render_slot_zero (c : Config) (v : Value) :
    (signed16 v < 0 → (render c v).p0 = minus) ∧ (0 ≤ signed16 v → (render c v).p0 ∈ c.segTable.toList) := by
  constructor
  · intro h
    rw [render_of_neg c h, renderNeg_eq]
  · intro h
    rw [render_of_nonneg c h, renderPos_eq]
    exact encDigit_mem c (digit_lt _ _)

/-- With a legal table a rendering shows the minus sign exactly for a negative value. -/
theorem render_minus_iff {c : Config} (hc : c.LegalTable) (v : Value) :
    (render c v).p0 = minus ↔ signed16 v < 0 := by
  constructor
  · intro h
    by_contra hn
    exact (hc.2 _ ((render_slot_zero c v).2 (by omega))).1 h
  · exact (render_slot_zero c v).1

/-! ### The storage -/

/-- Reading a slot of a written buffer reads the buffer written. -/
@[simp] theorem memRead_memWrite (r : Regs) (b : Buf) (k : Cursor) : (r.memWrite b).memRead k = bufRead b k := rfl

/-- A slot read is one of the four slots. -/
theorem bufRead_cases (b : Buf) (k : Cursor) :
    bufRead b k = b.p0 ∨ bufRead b k = b.p1 ∨ bufRead b k = b.p2 ∨ bufRead b k = b.p3 := by
  rcases cursor_cases k with rfl | rfl | rfl | rfl
  · exact .inl rfl
  · exact .inr (.inl rfl)
  · exact .inr (.inr (.inl rfl))
  · exact .inr (.inr (.inr rfl))

/-! ### The registers' operations -/

/-- The countdown after DEBOUNCE. -/
def nextCountdown (c : Config) (b : Bool) (k : Countdown) : Countdown :=
  if b = false then c.timeout else if k ≠ 0 then k - 1 else 0

/-- DEBOUNCE writes the countdown and nothing else. -/
theorem debounce_eq (c : Config) (b : Bool) (r : Regs) :
    r.debounce c b = r.setCountdown (nextCountdown c b r.countdown) := by
  unfold Regs.debounce nextCountdown
  split
  · rfl
  · split
    · next h => rw [Regs.dbCount, if_neg h]
    · rfl

/-- MUX_TICK, field by field. -/
theorem muxTick_eq (c : Config) (b : Bool) (r : Regs) :
    r.muxTick c b =
      { r with
        countdown := nextCountdown c b r.countdown
        comOut := if nextCountdown c b r.countdown ≠ 0 then onehot4 r.cursor else 0b0000
        segOut := if nextCountdown c b r.countdown ≠ 0 then r.memRead r.cursor else blank
        cursor := r.cursor + 1
        pendMux := false } := by
  unfold Regs.muxTick
  simp only [debounce_eq, Regs.setCountdown_countdown]
  split <;> rfl

/-- The value after SEC_TICK. -/
def nextValue (c : Config) (v : Value) : Value :=
  if signed16 v + 1 > valueMax then code16 c.valueMin else code16 (signed16 v + 1)

/-- SEC_TICK, field by field. -/
theorem secTick_eq (c : Config) (r : Regs) :
    r.secTick c = { r with value := nextValue c r.value, dirty := true, pendSec := false } := by
  unfold Regs.secTick nextValue
  split
  · rfl
  · next h =>
    have hv : r.value ≠ 0x7FFF := by
      intro hv
      apply h
      rw [hv]
      decide
    simp only [Regs.countInc, if_neg hv]
    rfl

/-- RECOMPUTE, field by field. -/
theorem recompute_eq (c : Config) (r : Regs) :
    r.recompute c = { r with buf := render c r.value, dirty := false } := rfl

/-- The range of the value is kept by a seconds tick. -/
theorem nextValue_range {c : Config} (hc : c.valueMin = -999 ∨ c.valueMin = 0) {v : Value}
    (h : c.valueMin ≤ signed16 v) :
    c.valueMin ≤ signed16 (nextValue c v) ∧ signed16 (nextValue c v) ≤ valueMax := by
  unfold nextValue
  have hb := signed16_bounds v
  unfold valueMax at *
  split
  · rw [signed16_code16 (by omega) (by omega)]
    omega
  · rw [signed16_code16 (by omega) (by omega)]
    omega

/-! ### One edge -/

/-- The operation of an unreset edge, by the request flags. -/
theorem serve_cases (c : Config) (b : Bool) (r : Regs) :
    (r.pendMux = true ∧ r.serve c b = r.muxTick c b) ∨
    (r.pendMux = false ∧ r.pendSec = true ∧ r.serve c b = r.secTick c) ∨
    (r.pendMux = false ∧ r.pendSec = false ∧ r.dirty = true ∧ r.serve c b = r.recompute c) ∨
    (r.pendMux = false ∧ r.pendSec = false ∧ r.dirty = false ∧ r.serve c b = r) := by
  unfold Regs.serve
  cases r.pendMux <;> cases r.pendSec <;> cases r.dirty <;> simp

/-- A reset edge. -/
theorem edge_of_rst (c : Config) {x : Sample} (b : Block) (h : x.rst = true) : b.edge c x = Block.reset c := by
  unfold Block.edge
  rw [if_pos h]

/-- The flip-flops after an unreset edge. -/
theorem edge_sync (c : Config) {x : Sample} (b : Block) (h : x.rst = false) :
    (b.edge c x).sync =
      { muxS1 := x.tm, muxS2 := b.sync.muxS1, muxS3 := b.sync.muxS2,
        secS1 := x.ts, secS2 := b.sync.secS1, secS3 := b.sync.secS2,
        btnS1 := x.bn, btnS2 := b.sync.btnS1 } := by
  simp [Block.edge, h]

/-- The registers after an unreset edge: the served operation, with the pending flags after capture. -/
theorem edge_regs (c : Config) {x : Sample} (b : Block) (h : x.rst = false) :
    (b.edge c x).regs =
      { b.regs.serve c b.sync.btnS2 with
        pendMux := b.sync.em
        pendSec := b.sync.es || (b.regs.pendSec && b.regs.pendMux) } := by
  cases hm : b.regs.pendMux <;> cases hs : b.regs.pendSec <;> simp [Block.edge, h, hm, hs]

/-- An unreset edge, whole. -/
theorem edge_of_unreset (c : Config) {x : Sample} (b : Block) (h : x.rst = false) :
    b.edge c x =
      { regs :=
          { b.regs.serve c b.sync.btnS2 with
            pendMux := b.sync.em
            pendSec := b.sync.es || (b.regs.pendSec && b.regs.pendMux) }
        sync := ((b.sync.shiftMux x.tm).shiftSec x.ts).shiftBtn x.bn } := by
  rw [← edge_regs c b h]
  exact congrArg (Block.mk _) (edge_sync c b h)

/-- Setting a flag to what it holds changes nothing. -/
theorem regs_pend_eta (r : Regs) : { r with pendMux := r.pendMux, pendSec := r.pendSec } = r := rfl

/-- What `step` answers: always a next state, the block's edge with the presented levels, the edge used up. -/
theorem step_eq_edge (s : State) :
    step s = .next ((s.withBlock (s.block.edge Config.cfg s.sample)).endEdge) := by
  unfold step State.edgeInstr State.finishEdge
  by_cases hr : s.sample.rst = true
  · simp only [hr, if_true, exec, execReset]
    rw [edge_of_rst _ _ hr]
  · have hr' : s.sample.rst = false := by simpa using hr
    rw [edge_of_unreset Config.cfg s.block hr']
    simp only [hr', Bool.false_eq_true, if_false, arb]
    rcases hm : s.regs.pendMux with _ | _ <;> rcases hs : s.regs.pendSec with _ | _ <;>
      rcases hd : s.regs.dirty with _ | _ <;>
      simp_all [exec, execMuxTick, execSecTick, execRecompute, execIdle, Regs.serve, State.withBlock, State.withRegs,
        State.withSync, Regs.captureMux, Regs.captureSec, Regs.setPendMux, Regs.setPendSec, muxTick_eq, secTick_eq,
        recompute_eq]

/-! ### The event level -/

/-- A step of the event level, inverted: it was enabled, and it had its effect. -/
theorem Token.fire_eq_some {c : Config} {k : Token} {r r' : Regs} :
    k.fire c r = some r' ↔ k.enabled r = true ∧ k.effect c r = r' := by
  simp [Token.fire]

/-- Something is requested. -/
theorem Regs.req_ne_zero (r : Regs) : r.req ≠ 0b000 ↔ r.pendMux = true ∨ r.pendSec = true ∨ r.dirty = true := by
  unfold Regs.req
  cases r.pendMux <;> cases r.pendSec <;> cases r.dirty <;> decide

/-- Every operation completes. -/
theorem exec_completes (i : Instr) (s : State) : ∃ t, exec i s = .next t := by
  cases i <;> exact ⟨_, rfl⟩

end Sys2Proof.Machine
end

