-- ==== Sys2Proof/Laws/PerInstr.lean ====
section
/-! SUPPORT. The round trip of the operation code, one lemma per constructor of `Instr`. -/

namespace Sys2Proof.Laws.RoundTrip

/-- A well-formed operation's code decodes to it, whatever bytes follow. -/
def Statement (i : Instr) : Prop :=
  ∀ rest : List Byte, i.wf = true → decode (encode i ++ rest) = .ok (i, rest)

/-- The round trip of a code depends on its selector byte and format alone. -/
theorem of_selector {i : Instr} (hf : Format.ofTag i.format.tag = some i.format)
    (hs : i.wf = true → decodeSelector i.format i.selector = .ok i) : Statement i := by
  intro rest hw
  simp only [encode, List.cons_append, List.nil_append, decode, hf, hs hw]

theorem muxTick (pendSec dirty : Bool) : Statement (.muxTick pendSec dirty) :=
  of_selector rfl fun _ => by revert pendSec dirty; decide

theorem secTick (dirty : Bool) : Statement (.secTick dirty) :=
  of_selector rfl fun _ => by revert dirty; decide

theorem recompute : Statement .recompute := of_selector rfl fun _ => rfl

theorem idle : Statement .idle := of_selector rfl fun _ => rfl

theorem dbRearm (z : Bool) : Statement (.dbRearm z) :=
  of_selector rfl fun _ => by revert z; decide

theorem dbCount : Statement .dbCount := of_selector rfl fun _ => rfl

theorem dbHold0 : Statement .dbHold0 := of_selector rfl fun _ => rfl

theorem muxDrive : Statement .muxDrive := of_selector rfl fun _ => rfl

theorem muxBlank : Statement .muxBlank := of_selector rfl fun _ => rfl

theorem renderPos : Statement .renderPos := of_selector rfl fun _ => rfl

theorem renderNeg : Statement .renderNeg := of_selector rfl fun _ => rfl

theorem countInc : Statement .countInc := of_selector rfl fun _ => rfl

theorem countWrap : Statement .countWrap := of_selector rfl fun _ => rfl

theorem enc0 : Statement .enc0 := of_selector rfl fun _ => rfl

theorem enc1 : Statement .enc1 := of_selector rfl fun _ => rfl

theorem enc2 : Statement .enc2 := of_selector rfl fun _ => rfl

theorem enc3 : Statement .enc3 := of_selector rfl fun _ => rfl

theorem enc4 : Statement .enc4 := of_selector rfl fun _ => rfl

theorem enc5 : Statement .enc5 := of_selector rfl fun _ => rfl

theorem enc6 : Statement .enc6 := of_selector rfl fun _ => rfl

theorem enc7 : Statement .enc7 := of_selector rfl fun _ => rfl

theorem enc8 : Statement .enc8 := of_selector rfl fun _ => rfl

theorem enc9 : Statement .enc9 := of_selector rfl fun _ => rfl

theorem encRsvdA (d : Bcd) : Statement (.encRsvdA d) :=
  of_selector rfl (by revert d; decide)

theorem encRsvdB (d : Bcd) : Statement (.encRsvdB d) :=
  of_selector rfl (by revert d; decide)

theorem encMinus : Statement .encMinus := of_selector rfl fun _ => rfl

theorem encBlank : Statement .encBlank := of_selector rfl fun _ => rfl

theorem cursorAdv : Statement .cursorAdv := of_selector rfl fun _ => rfl

theorem debounce : Statement .debounce := of_selector rfl fun _ => rfl

theorem captureMux : Statement .captureMux := of_selector rfl fun _ => rfl

theorem captureSec : Statement .captureSec := of_selector rfl fun _ => rfl

theorem btnSync : Statement .btnSync := of_selector rfl fun _ => rfl

theorem step : Statement .step := of_selector rfl fun _ => rfl

theorem reset : Statement .reset := of_selector rfl fun _ => rfl

end Sys2Proof.Laws.RoundTrip
end

