-- ==== Sys2Proof/Tests/Slice0.lean ====
section
/-! SUPPORT. Tests (expected results from spec/95_test_vectors.md, entries T10 to T24, and from the tables of the rules) and the
witnesses that the hypotheses of the obligations can be met. -/

namespace Sys2Proof.Tests

open Sys2Proof.Machine

/-! ### Helpers -/

/-- A test on the next state; false where there is none. -/
def after (o : Host.Outcome State Fault Refusal) (f : State → Bool) : Bool :=
  match o with
  | .next t => f t
  | .fault _ => false
  | .refused _ => false

/-- The four slots of a buffer. -/
def slots (b : Buf) : List SegPat := [b.p0, b.p1, b.p2, b.p3]

/-- The reset state with other registers, the button chain at `btn`, and the coming edge's levels. -/
def stateOf (r : Regs) (btn : Bool) (x : Sample) : State :=
  { regs := r
    sync := { Sync.reset with btnS2 := btn }
    bench := { Bench.reset with inputs := [x] } }

/-- An unreset edge with idle lines. -/
def quiet : Sample := { rst := false, tm := false, ts := false, bn := true }

/-- A reset edge with every line active (T24). -/
def resetNow : Sample := { rst := true, tm := true, ts := false, bn := false }

/-- The registers of T12: the buffer shows 1234. -/
def regs1234 (cursor : Cursor) (countdown : Countdown) : Regs :=
  { Regs.reset Config.cfg with
    value := 0x04D2
    buf := { p0 := 0x30, p1 := 0x6D, p2 := 0x79, p3 := 0x33 }
    cursor := cursor
    countdown := countdown }

/-- The reset registers with another value. -/
def regsOf (v : Value) : Regs := { Regs.reset Config.cfg with value := v }

/-- The registers with other request flags. -/
def flags (r : Regs) (pendMux pendSec dirty : Bool) : Regs :=
  { r with pendMux := pendMux, pendSec := pendSec, dirty := dirty }

/-! ### Decode: every row's word written out from spec/opcode_table.json -/

theorem test_decode_req :
    (List.map decodeReq [0b100, 0b101, 0b110, 0b111, 0b010, 0b011, 0b001, 0b000]) =
      [.muxTick false false, .muxTick false true, .muxTick true false, .muxTick true true, .secTick false, .secTick true,
        .recompute, .idle] := by decide

theorem test_decode_dbsel :
    (List.map decodeDbsel [0b00, 0b01, 0b10, 0b11]) = [.dbRearm false, .dbRearm true, .dbCount, .dbHold0] := by decide

theorem test_decode_gate : (List.map decodeGate [0b1, 0b0]) = [.muxDrive, .muxBlank] := by decide

theorem test_decode_sign : (List.map decodeSign [0b0, 0b1]) = [.renderPos, .renderNeg] := by decide

theorem test_decode_wrap : (List.map decodeWrap [0b0, 0b1]) = [.countInc, .countWrap] := by decide

theorem test_decode_bcd :
    (List.map decodeBcd [0b0000, 0b0001, 0b0010, 0b0011, 0b0100, 0b0101, 0b0110, 0b0111, 0b1000, 0b1001]) =
      [.enc0, .enc1, .enc2, .enc3, .enc4, .enc5, .enc6, .enc7, .enc8, .enc9] := by decide

theorem test_decode_bcd_reserved :
    (List.map decodeBcd [0b1010, 0b1011, 0b1100, 0b1101, 0b1110, 0b1111]) =
      [.encRsvdA 10, .encRsvdA 11, .encRsvdB 12, .encRsvdB 13, .encRsvdB 14, .encRsvdB 15] := by decide

theorem test_decode_rst : decodeRst 0b1 = .ok .reset ∧ decodeRst 0b0 = .error .noResetRequested := by decide

theorem test_decode_rows_without_word :
    (List.map decodeNone [0, 1, 2, 3, 4, 5, 6, 7]) =
      [.encMinus, .encBlank, .cursorAdv, .debounce, .captureMux, .captureSec, .btnSync, .step] := by decide

theorem test_decode_bytes :
    decode [0b101, 0, 0xAA] = .ok (.muxTick false true, [0xAA]) ∧ decode [0b100, 1] = .error .wideSelector ∧
      decode [0, 8] = .error .unknownFormat ∧ decode [0] = .error .truncated := by decide

theorem test_table_word_req :
    decodeTableWord 8 0b100 = some (.muxTick false false) ∧ decodeTableWord 8 0b001 = some .recompute ∧
      decodeTableWord 8 0b1000 = none := by decide

theorem test_table_word_tagged :
    decodeTableWord 16 0x0505 = some .enc5 ∧ decodeTableWord 16 0x0601 = some .reset := by decide

/-! ### WellFormed smoke: an ill-formed term for each check -/

theorem test_wf_refuses_rsvdA : (Instr.encRsvdA 0b0101).wf = false ∧ (Instr.encRsvdA 0b1100).wf = false := by decide

theorem test_wf_refuses_rsvdB : (Instr.encRsvdB 0b1001).wf = false ∧ (Instr.encRsvdB 0b1011).wf = false := by decide

theorem test_default_legal : Config.default.Legal := by decide

theorem test_legal_refuses_value_min : ¬({ Config.default with valueMin := -5 } : Config).Legal := by decide

theorem test_legal_refuses_value_init :
    ¬({ Config.default with valueInit := 10000 } : Config).Legal ∧
      ¬({ Config.default with valueInit := -1000 } : Config).Legal := by decide

theorem test_legal_refuses_timeout : ¬({ Config.default with timeout := 0 } : Config).Legal := by decide

theorem test_legal_refuses_table_repeat :
    ¬({ Config.default with
        segTable := #v[0x7E, 0x30, 0x6D, 0x79, 0x33, 0x5B, 0x5F, 0x70, 0x7F, 0x7E] } : Config).Legal := by decide

theorem test_legal_refuses_table_minus_blank :
    ¬({ Config.default with
        segTable := #v[0x7E, 0x30, 0x6D, 0x79, 0x33, 0x5B, 0x5F, 0x70, 0x7F, 0x01] } : Config).Legal ∧
      ¬({ Config.default with
        segTable := #v[0x00, 0x30, 0x6D, 0x79, 0x33, 0x5B, 0x5F, 0x70, 0x7F, 0x7B] } : Config).Legal := by decide

theorem test_legal_refuses_table_point :
    ¬({ Config.default with
        segTable := #v[0x7E, 0x30, 0x6D, 0x79, 0x33, 0x5B, 0x5F, 0x70, 0xFF, 0x7B] } : Config).Legal := by decide

/-! ### Segment encoder (T10; the segments lit, R62) -/

theorem test_encoder_vectors :
    [exec .enc0, exec .enc1, exec .enc2, exec .enc3, exec .enc4, exec .enc5, exec .enc6, exec .enc7, exec .enc8,
        exec .enc9].map (fun f => after (f State.reset) fun t => t.bench.encOut != 0x00) =
      List.replicate 10 true := by decide

theorem test_encoder_segments :
    (List.range 10).map (fun d => encDigit Config.cfg (bcd d)) =
      [patternOf [.a, .b, .c, .d, .e, .f], patternOf [.b, .c], patternOf [.a, .b, .d, .e, .g],
        patternOf [.a, .b, .c, .d, .g], patternOf [.b, .c, .f, .g], patternOf [.a, .c, .d, .f, .g],
        patternOf [.a, .c, .d, .e, .f, .g], patternOf [.a, .b, .c], patternOf [.a, .b, .c, .d, .e, .f, .g],
        patternOf [.a, .b, .c, .d, .f, .g]] := by decide

theorem test_enc5 : after (exec .enc5 State.reset) (fun t => t.bench.encOut == 0x5B) = true := by decide

theorem test_encRsvdA : after (exec (.encRsvdA 11) State.reset) (fun t => t.bench.encOut == 0x00) = true := by decide

theorem test_encRsvdB : after (exec (.encRsvdB 15) State.reset) (fun t => t.bench.encOut == 0x00) = true := by decide

theorem test_encMinus : after (exec .encMinus State.reset) (fun t => t.bench.encOut == patternOf [.g]) = true := by decide

theorem test_encBlank : after (exec .encBlank (State.reset.encode 8)) (fun t => t.bench.encOut == 0x00) = true := by decide

/-! ### Display buffer (T11) -/

theorem test_renderPos_1234 :
    after (exec .renderPos (stateOf (regsOf 0x04D2) true quiet)) (fun t => slots t.bench.rendOut == [0x30, 0x6D, 0x79, 0x33]) =
      true := by decide

theorem test_renderNeg_min :
    after (exec .renderNeg (stateOf (regsOf 0xFC19) true quiet)) (fun t => slots t.bench.rendOut == [0x01, 0x7B, 0x7B, 0x7B]) =
      true := by decide

theorem test_recompute_minus5 :
    after (exec .recompute (stateOf (flags (regsOf 0xFFFB) false false true) true quiet))
      (fun t => slots t.regs.buf == [0x01, 0x7E, 0x7E, 0x5B] && !t.regs.dirty) = true := by decide

theorem test_recompute_unreachable :
    after (exec .recompute (stateOf (regsOf 0x8000) true quiet)) (fun t => slots t.regs.buf == [0x01, 0x70, 0x5F, 0x7F]) =
      true := by decide

theorem test_unrender : unrender Config.cfg { p0 := 0x01, p1 := 0x7E, p2 := 0x33, p3 := 0x6D } = some (-42) := by decide

/-! ### Digit multiplexer (T12; R76's example) -/

theorem test_muxDrive :
    after (exec .muxDrive (stateOf (regs1234 2 9) true quiet)) (fun t => t.regs.segOut == 0x79 && t.regs.comOut == 0b0100) =
      true := by decide

theorem test_muxBlank :
    after (exec .muxBlank (stateOf { regs1234 2 0 with segOut := 0x79, comOut := 0b0100 } true quiet))
      (fun t => t.regs.segOut == 0x00 && t.regs.comOut == 0b0000) = true := by decide

theorem test_cursorAdv_wraps :
    after (exec .cursorAdv (stateOf (regs1234 3 9) true quiet)) (fun t => t.regs.cursor == 0) = true := by decide

theorem test_muxTick_blanks_at_zero :
    after (exec (.muxTick false false) (stateOf (regs1234 1 1) true quiet))
      (fun t => t.regs.countdown == 0 && t.regs.comOut == 0b0000 && t.regs.segOut == 0x00 && t.regs.cursor == 2) =
      true := by decide

theorem test_muxTick_pressed :
    after (exec (.muxTick true true) (stateOf (regs1234 1 1) false quiet))
      (fun t => t.regs.countdown == 10 && t.regs.comOut == 0b0010 && t.regs.segOut == 0x6D && t.regs.cursor == 2) =
      true := by decide

/-! ### Debounce (T13) -/

theorem test_dbRearm :
    after (exec (.dbRearm true) (stateOf (regs1234 0 0) false quiet)) (fun t => t.regs.countdown == 10) = true := by decide

theorem test_dbCount :
    after (exec .dbCount (stateOf (regs1234 0 200) true quiet)) (fun t => t.regs.countdown == 199) = true := by decide

theorem test_dbHold0 :
    after (exec .dbHold0 (stateOf (regs1234 0 0) true quiet)) (fun t => t.regs.countdown == 0) = true := by decide

theorem test_debounce_holds_zero :
    after (exec .debounce (stateOf (regs1234 0 0) true quiet)) (fun t => t.regs.countdown == 0) = true := by decide

theorem test_debounce_press_at_one :
    after (exec .debounce (stateOf (regs1234 0 1) false quiet)) (fun t => t.regs.countdown == 10) = true := by decide

/-! ### Seconds counter (T14) -/

theorem test_countInc_crosses_zero :
    after (exec .countInc (stateOf (regsOf 0xFFFF) true quiet)) (fun t => t.regs.value == 0x0000) = true := by decide

theorem test_countWrap :
    after (exec .countWrap (stateOf (regsOf 0x270F) true quiet)) (fun t => t.regs.value == 0xFC19) = true := by decide

theorem test_countWrap_simple :
    ((regsOf 0x270F).countWrap { Config.default with valueMin := 0 }).value = 0x0000 := by decide

theorem test_secTick_wraps :
    after (exec (.secTick false) (stateOf (flags (regsOf 0x270F) false true false) true quiet))
      (fun t => t.regs.value == 0xFC19 && t.regs.dirty && !t.regs.pendSec) = true := by decide

theorem test_secTick_no_overflow :
    after (exec (.secTick true) (stateOf (regsOf 0x7FFF) true quiet)) (fun t => t.regs.value == 0xFC19) = true := by decide

/-! ### Idle, synchronizer, reset, one edge (T15 to T17, T22 to T24) -/

theorem test_idle : after (exec .idle State.reset) (fun t => decide (t = State.reset)) = true := by decide

theorem test_captureMux :
    after (exec .captureMux { State.reset with sync := { Sync.reset with muxS2 := true } })
      (fun t => t.regs.pendMux && !t.regs.pendSec && t.sync.muxS2) = true := by decide

theorem test_captureSec_level_does_not_retrigger :
    after (exec .captureSec { State.reset with sync := { Sync.reset with secS2 := true, secS3 := true } })
      (fun t => !t.regs.pendSec) = true := by decide

theorem test_btnSync :
    after (exec .btnSync (stateOf (regsOf 0) true { quiet with bn := false })) (fun t => !t.sync.btnS1 && t.sync.btnS2) =
      true := by decide

theorem test_reset_discards_pending :
    after (exec .reset (stateOf (flags (regs1234 2 0) true false true) true resetNow))
      (fun t => decide (t.regs = Regs.reset Config.cfg) && decide (t.sync = Sync.reset)) = true := by decide

theorem test_step_reset_edge :
    after (exec .step (stateOf (flags (regs1234 2 0) true false true) true resetNow))
      (fun t => decide (t.regs = Regs.reset Config.cfg) && !t.sync.muxS1 && t.sync.btnS1 && t.bench.inputs == []) =
      true := by decide

/-- P4, edge 4: both ticks pending, button pressed. -/
theorem test_step_both_pending :
    after (step (stateOf (flags (regsOf 0x270F) true true false) false quiet))
      (fun t => t.regs.cursor == 1 && !t.regs.pendMux && t.regs.pendSec && t.regs.value == 0x270F && t.regs.comOut == 0b0001) =
      true := by decide

/-- P4, edge 3: `em = es = 1` while the block is idle. -/
theorem test_step_captures :
    after (step { stateOf (regsOf 0x270F) true quiet with
        sync := { Sync.reset with muxS1 := true, muxS2 := true, secS2 := true } })
      (fun t => t.regs.pendMux && t.regs.pendSec && t.sync.muxS3 && t.sync.muxS2 && t.sync.secS3 && !t.sync.secS2) =
      true := by decide

theorem test_step_placed_word :
    after (step (State.reset.withFetchWord 8 0b010)) (fun t => t.regs.value == 0x0001 && t.regs.dirty) = true := by decide

theorem test_step_placed_reset :
    after (step ((stateOf (flags (regs1234 2 0) true false true) true quiet).withFetchWord 16 0x0601))
      (fun t => decide (t.regs = Regs.reset Config.cfg)) = true := by decide

theorem test_ports_inverted :
    (State.reset.regs.ports { Config.default with segInvert := true, comInvert := true }) =
      { segO := 0xFF, comO := 0b1111, sleepO := true } := by decide

/-- P3, step 3: `S` is not enabled while `PEND_MUX = 1`. -/
theorem test_event_priority :
    Token.s.enabled (flags (regsOf 0) true true false) = false ∧
      (Token.m false).enabled (flags (regsOf 0) true true false) = true := by decide

/-! ### Witnesses: the hypotheses of the obligations can be met -/

theorem witness_DecodeOfEncodeIsTheOperation :
    (Instr.encRsvdB 0b1100).wf = true ∧ (Instr.encRsvdA 0b1011).wf = true ∧ (Instr.muxTick true false).wf = true := by decide

theorem witness_EncodeOfDecodeIsTheWord : decode [0b1111, 5, 7] = .ok (.encRsvdB 15, [7]) := by decide

theorem witness_OtherWordsAreRefused :
    2 ^ Format.dbsel.width ≤ (4 : Byte).toNat ∧ 8 ≤ (8 : Byte).toNat ∧ ([1] : List Byte).length < 2 := by decide

theorem witness_StepRunsTheDecodedOperation_rst :
    let s := stateOf (regs1234 2 9) true resetNow
    decode [0b1, 6] = .ok (.reset, []) ∧ s.sample.rst = true ∧ after (exec .reset s) (fun _ => true) = true := by decide

theorem witness_StepRunsTheDecodedOperation_req :
    let s := stateOf (flags (regs1234 2 9) false true false) true quiet
    decode [(reqWord s.regs.pendMux s.regs.pendSec s.regs.dirty).setWidth 8, 0] = .ok (.secTick false, []) ∧
      s.sample.rst = false ∧ after (exec (.secTick false) s) (fun _ => true) = true := by decide

theorem witness_StepIsTheClockEdgeFunction :
    (stateOf (regsOf 0) true resetNow).sample.rst = true ∧ (stateOf (regsOf 0) true quiet).sample.rst = false ∧
      (flags (regsOf 0) true false false).pendMux = true ∧ (flags (regsOf 0) false true false).pendSec = true ∧
      (flags (regsOf 0) false false true).dirty = true ∧ (flags (regsOf 0) false false false).dirty = false := by decide

/-- Two states with the same block and the same coming levels that differ on the bench. -/
theorem witness_StepIsTheClockEdgeFunction_bench :
    let s := stateOf (flags (regs1234 2 9) true false true) true quiet
    let t : State := { s with bench :=
      { inputs := [quiet, resetNow], source := { name := 5 }, encOut := 0x7E, rendOut := s.bench.rendOut } }
    s.block = t.block ∧ s.sample = t.sample ∧ s ≠ t := by decide

theorem witness_ReservedDigitCodesGiveBlank :
    (0b1010 : Bcd) &&& 0b1110 = 0b1010 ∧ (0b1111 : Bcd) &&& 0b1100 = 0b1100 := by decide

theorem witness_EncoderIsInjectiveOnDigits :
    Config.default.Legal ∧ (9 : Bcd).toNat < 10 ∧ encDigit Config.default 9 = encDigit Config.default 9 := by decide

theorem witness_RenderPosShowsFourDigits : (0x7FFF : Value).getLsbD 15 = false := by decide

theorem witness_RenderNegShowsMinusAndThreeDigits : (0x8000 : Value).getLsbD 15 = true := by decide

theorem witness_MagnitudeIsUnsignedNegation : signed16 0x8000 < 0 ∧ signed16 0xFFFF < 0 := by decide

theorem witness_RecomputeReplacesTheWholeBuffer :
    let s := stateOf (flags (regsOf 0xFFFB) false false true) true quiet
    s.sample.rst = false ∧ after (exec .recompute s) (fun _ => true) = true := by decide

theorem witness_RenderIsTotal : 0 ≤ signed16 0x7FFF ∧ signed16 0x8000 < 0 := by decide

theorem witness_UnrenderOfRenderIsTheValue :
    Config.default.Legal ∧ (-999 : Int) ≤ -999 ∧ (9999 : Int) ≤ 9999 := by decide

theorem witness_MuxTickEffect :
    let s := stateOf (flags (regs1234 0 1) true false false) true quiet
    s.sample.rst = false ∧ s.regs.pendMux = true := by decide

theorem witness_AtMostOneLineAfterATick :
    after (exec (.muxTick false true) (stateOf (regs1234 3 2) true quiet))
      (fun t => t.regs.comOut.getLsbD 3) = true := by decide

theorem witness_OutputsHoldBetweenTicks :
    let s := stateOf { flags (regs1234 2 9) false true false with segOut := 0x6D, comOut := 0b0010 } true quiet
    s.sample.rst = false ∧ s.regs.pendMux = false ∧ after (step s) (fun t => t.regs.segOut == 0x6D) = true := by decide

theorem witness_TicksShowOneBufferInRotation :
    let t := [true, false, true].foldl (fun r b => Regs.muxTick Config.cfg b r) (regs1234 2 1)
    (t.muxTick Config.cfg true).countdown ≠ 0 ∧ ((regs1234 2 1).muxTick Config.cfg true).countdown = 0 := by decide

theorem witness_DbRearmSetsTheTimeout :
    after (exec (.dbRearm true) (stateOf (regs1234 0 0) false quiet)) (fun _ => true) = true := by decide

theorem witness_DbCountDecrements :
    (stateOf (regs1234 0 1) true quiet).sync.btnS2 = true ∧ (stateOf (regs1234 0 1) true quiet).regs.countdown ≠ 0 := by decide

theorem witness_DbHoldKeepsZero :
    (stateOf (regs1234 0 0) true quiet).sync.btnS2 = true ∧ (stateOf (regs1234 0 0) true quiet).regs.countdown = 0 := by decide

theorem witness_DebounceStateTable :
    (stateOf (regs1234 0 0) false quiet).sync.btnS2 = false ∧ (stateOf (regs1234 0 255) true quiet).regs.countdown ≠ 0 ∧
      (stateOf (regs1234 0 0) true quiet).sync.btnS2 = true := by decide

/-- The tick before the last, and the last (`k = N - 1` and `k = N`). -/
theorem witness_TimeoutAfterExactlyNTicks :
    (regs1234 0 3).countdown ≠ 0 ∧ 1 ≤ 2 ∧ 2 < (regs1234 0 3).countdown.toNat ∧ (regs1234 0 3).countdown.toNat ≤ 3 ∧
      Config.default.timeout ≠ 0 ∧ 9 < Config.default.timeout.toNat ∧ Config.default.timeout.toNat ≤ 10 := by decide

theorem witness_CountIncAddsOne :
    signed16 (regsOf 0x270E).value + 1 ≤ 9999 ∧ signed16 (regsOf 0x8000).value + 1 ≤ 9999 ∧
      signed16 (regsOf 0xFFFF).value + 1 ≤ 9999 ∧ code16 (signed16 (regsOf 0xFFFF).value + 1) = 0 := by decide

theorem witness_CountWrapStoresTheMinimum :
    signed16 (regsOf 0x270F).value + 1 > 9999 ∧ Config.default.Legal ∧
      ({ Config.default with valueMin := 0 } : Config).Legal := by decide

theorem witness_SecTickEffect :
    signed16 (regsOf 0x7FFF).value + 1 > 9999 ∧ signed16 (regsOf 0x270E).value + 1 ≤ 9999 := by decide

theorem witness_WrapLawVisitsEveryValue :
    Config.default.Legal ∧ (regsOf 0xFC19).value = code16 Config.default.valueMin := by decide

theorem witness_CaseOperationsOnTheirOwn :
    (regs1234 0 1).countdown ≠ 0 ∧ signed16 (regsOf 0x7FFE).value < 32767 := by decide

theorem witness_IdleChangesNothing :
    (stateOf (regsOf 0) true quiet).sample.rst = false ∧ (stateOf (regsOf 0) true quiet).regs.req = 0b000 := by decide

theorem witness_PortsFollowTheRegisters : 7 < 8 ∧ 3 < 4 ∧ (stateOf (regsOf 0) true quiet).sample.rst = false := by decide

theorem witness_MuxDriveAndHal : (3 < 4) ∧ (0 : Nat) ≠ (3 : Cursor).toNat := by decide

theorem witness_SynchronizerOperations :
    let y : Sync := { Sync.reset with muxS2 := true, secS2 := true }
    let z : Sync := { y with muxS3 := true, secS3 := true }
    (y.muxS2 = true ∧ y.muxS3 = false) ∧ (y.secS2 = true ∧ y.secS3 = false) ∧
      ¬(z.muxS2 = true ∧ z.muxS3 = false) ∧ ¬(z.secS2 = true ∧ z.secS3 = false) := by decide

theorem witness_CaptureWinsOverService :
    let s := { stateOf (flags (regsOf 0) false true false) true quiet with sync := { Sync.reset with secS2 := true } }
    s.sample.rst = false ∧ s.sync.es = true ∧ (stateOf (regsOf 0) true quiet).sync.es = false ∧
      after (step s) (fun t => t.regs.pendSec) = true := by decide

/-- A block with both ticks pending that meets the synchronizer's invariant. -/
def bothPending : Block :=
  { regs := flags (regsOf 0) true true true, sync := { Sync.reset with muxS3 := true, secS3 := true } }

theorem witness_SyncInvariantKept :
    SyncInv bothPending ∧
      after (step ((stateOf (regsOf 0) true quiet).withBlock bothPending)) (fun t => t.regs.pendSec && !t.regs.pendMux) = true :=
  ⟨⟨fun _ => rfl, fun _ _ => rfl⟩, by decide⟩

theorem witness_NoTickIsLostOrMerged : SyncInv bothPending ∧ NoReset [quiet, { quiet with tm := true }] :=
  ⟨⟨fun _ => rfl, fun _ _ => rfl⟩, by decide⟩

theorem witness_CapturedTickIsServedThreeEdgesLater :
    NoReset [{ quiet with tm := true, ts := true }, quiet, quiet, quiet, quiet] ∧
      (Block.reset Config.cfg).sync.muxS1 = false ∧ (Block.reset Config.cfg).sync.secS1 = false := by decide

theorem witness_RecomputeWithinEightEdges :
    let xs := { quiet with tm := true } :: List.replicate 7 quiet
    SyncInv bothPending ∧ NoReset xs ∧ xs.length = 8 ∧ RisesSpaced (bothPending.muxLine xs) ∧
      RisesSpaced (bothPending.secLine xs) ∧ bothPending.regs.dirty = true :=
  ⟨⟨fun _ => rfl, fun _ _ => rfl⟩, by decide⟩

/-- The boundary of the premise: two rises seven sampled edges apart, on both lines at once. -/
theorem witness_RecomputeWithinEightEdges_boundary :
    let up := { quiet with tm := true, ts := true }
    let xs := up :: List.replicate 6 quiet ++ [up]
    NoReset xs ∧ xs.length = 8 ∧ risesFrom 0 (bothPending.muxLine xs) = [2, 9] ∧ RisesSpaced (bothPending.muxLine xs) ∧
      RisesSpaced (bothPending.secLine xs) := by decide

theorem witness_LineHighAtResetReleaseCountsOnce :
    let xs := List.replicate 6 { quiet with tm := true }
    NoReset xs ∧ (∀ x ∈ xs, x.tm = true) ∧ 4 ≤ xs.length := by decide

theorem witness_LineHighAtResetReleaseCountsOnce_sec :
    let xs := List.replicate 5 { quiet with ts := true }
    NoReset xs ∧ (∀ x ∈ xs, x.ts = true) ∧ 5 ≤ xs.length ∧
      (Block.run Config.cfg (xs.take 3) (Block.reset Config.cfg)).regs.pendMux = false := by decide

/-- A run of the event level that serves a pending mux tick, a pending seconds tick and the recompute, then idles. -/
def drainTokens : Nat → Token
  | 0 => .m true
  | 1 => .s
  | 2 => .r
  | _ => .i

/-- The registers along that run. -/
def drainRegs : Nat → Regs
  | 0 => flags (regsOf 0) true true false
  | 1 => (flags (regsOf 0) true true false).muxTick Config.cfg true
  | 2 => ((flags (regsOf 0) true true false).muxTick Config.cfg true).secTick Config.cfg
  | _ => (((flags (regsOf 0) true true false).muxTick Config.cfg true).secTick Config.cfg).recompute Config.cfg

theorem drain_is_run : InfiniteRun Config.cfg drainTokens drainRegs := fun n =>
  match n with
  | 0 => rfl
  | 1 => rfl
  | 2 => rfl
  | _ + 3 => (by decide : Token.fire Config.cfg (drainRegs 3) .i = some (drainRegs 3))

theorem drain_is_fair : WeaklyFair drainTokens drainRegs := fun n h =>
  absurd (show (drainRegs (n + 3)).req = 0b000 from (by decide : (drainRegs 3).req = 0b000)) (h (n + 3) (Nat.le_add_right n 3))

theorem drain_captures_nothing (j : Nat) : drainTokens j ≠ .rst ∧ drainTokens j ≠ .plusM ∧ drainTokens j ≠ .plusS :=
  match j with
  | 0 => by decide
  | 1 => by decide
  | 2 => by decide
  | _ + 3 => ⟨nofun, nofun, nofun⟩

theorem witness_RequestsAreServed :
    (SyncInv bothPending ∧ NoReset [quiet, quiet] ∧ bothPending.regs.pendMux = true ∧ bothPending.regs.pendSec = true ∧
      bothPending.regs.req ≠ 0b000) ∧
    InfiniteRun Config.cfg drainTokens drainRegs ∧ WeaklyFair drainTokens drainRegs ∧
      (∀ j, drainTokens j ≠ .rst ∧ drainTokens j ≠ .plusM ∧ drainTokens j ≠ .plusS) ∧
      (drainRegs 0).pendMux = true ∧ (drainRegs 0).pendSec = true :=
  ⟨⟨⟨fun _ => rfl, fun _ _ => rfl⟩, by decide⟩, drain_is_run, drain_is_fair, drain_captures_nothing, rfl, rfl⟩

theorem witness_ResetGivesTheResetTable :
    (stateOf (regs1234 2 9) true resetNow).sample.rst = true ∧ resetNow.rst = true := by decide

/-- Registers that show the minus sign of -5 at position 0, with a seconds tick just counted. -/
def showingMinus : Regs :=
  { Regs.reset Config.cfg with
    value := 0xFFFC
    buf := { p0 := 0x01, p1 := 0x7E, p2 := 0x7E, p3 := 0x5B }
    cursor := 1
    countdown := 9
    segOut := 0x01
    comOut := 0b0001
    pendMux := true
    dirty := true }

theorem witness_inv_showingMinus : Inv Config.cfg showingMinus where
  value_range := by decide
  countdown_range := by decide
  com_one_hot := by decide
  seg_legal := by decide
  dark_together := by decide
  buf_digits := by decide
  buf_of_one_value := ⟨0xFFFB, by decide⟩
  clean_buf := by decide

theorem witness_StepKeepsTheInvariants :
    Inv Config.cfg showingMinus ∧
      after (step (stateOf showingMinus true quiet)) (fun t => t.regs.comOut == 0b0010) = true :=
  ⟨witness_inv_showingMinus, by decide⟩

theorem witness_EveryLegalBlockKeepsTheInvariants :
    Config.cfg.Legal ∧ Inv Config.cfg showingMinus ∧ ((Token.m true).fire Config.cfg showingMinus).isSome = true :=
  ⟨by decide, witness_inv_showingMinus, by decide⟩

theorem witness_InvariantsHoldAtReset : ({ Config.default with valueInit := -5, timeout := 1 } : Config).Legal := by decide

theorem witness_CycleLevelRefinesEventLevel :
    after (step (stateOf showingMinus true quiet)) (fun t => !t.regs.pendMux) = true := by decide

theorem witness_PseudoTokensRunTheirExpansion : (regsOf 0).pendMux = false := by decide

theorem witness_PartsOfOperationsFrame :
    Instr.enc3.format = .bcd ∧ Instr.renderNeg.format = .sign ∧ Instr.dbCount.format = .dbsel ∧
      Instr.muxDrive.format = .gate ∧ Instr.countWrap.format = .wrap ∧ Instr.debounce.format ≠ .req ∧
      after (exec .dbCount (stateOf (regs1234 0 5) true quiet)) (fun _ => true) = true := by decide

theorem witness_EachContextWritesItsOwnState :
    (Instr.secTick true).format = .req ∧
      after (exec (.secTick true) (stateOf (regs1234 0 5) true quiet)) (fun t => t.regs.dirty) = true ∧
      (∀ a d, Instr.secTick true ≠ .muxTick a d) ∧ (∀ d, Instr.recompute ≠ .secTick d) ∧
      Instr.idle ≠ .recompute := by decide

end Sys2Proof.Tests
end

/-! SUPPORT. What a selector word decodes to in the formats DBSEL, SIGN and WRAP (`30_encoding.md` R51, R53, R54), and that the
operations which hold a choice perform the case their selector word names; the code of the magnitude (R56). -/

namespace Sys2Proof.Machine

/-! ### Format DBSEL -/

/-- With the button pressed both words `0z` select DB_REARM. -/
@[simp] theorem decodeDbsel_pressed (z : Bool) :
    decodeDbsel (BitVec.ofBool false ++ BitVec.ofBool z) = .dbRearm z := by
  cases z <;> rfl

/-- The word of a pressed button. -/
theorem decodeDbsel_dbselWord_pressed (k : Countdown) :
    decodeDbsel (dbselWord false k) = .dbRearm (k == 0) := decodeDbsel_pressed _

/-- The word of a released button with the countdown running. -/
theorem decodeDbsel_dbselWord_count {k : Countdown} (h : k ≠ 0) : decodeDbsel (dbselWord true k) = .dbCount := by
  rw [dbselWord, beq_eq_false_iff_ne.mpr h]
  rfl

/-- The word of a released button with the countdown at zero. -/
theorem decodeDbsel_dbselWord_zero : decodeDbsel (dbselWord true 0) = .dbHold0 := rfl

/-- DEBOUNCE is the case that `{b, z}`, taken before the edge, selects (R51). -/
theorem exec_decodeDbsel_dbselWord (s : State) :
    exec (decodeDbsel (dbselWord s.sync.btnS2 s.regs.countdown)) s = exec .debounce s := by
  simp only [exec, execDebounce, Regs.debounce]
  cases s.sync.btnS2 with
  | false => rw [decodeDbsel_dbselWord_pressed]; rfl
  | true =>
    by_cases h : s.regs.countdown = 0
    · rw [h, decodeDbsel_dbselWord_zero]; rfl
    · rw [decodeDbsel_dbselWord_count h, if_neg (by decide), if_pos h]; rfl

/-! ### Format WRAP -/

/-- Above the maximum the counter's word selects COUNT_WRAP. -/
theorem decodeWrap_wrapWord_wrap {v : Value} (h : signed16 v + 1 > valueMax) :
    decodeWrap (wrapWord v) = .countWrap := by
  rw [wrapWord, decide_eq_true h]
  rfl

/-- Up to the maximum the counter's word selects COUNT_INC. -/
theorem decodeWrap_wrapWord_inc {v : Value} (h : ¬ signed16 v + 1 > valueMax) :
    decodeWrap (wrapWord v) = .countInc := by
  rw [wrapWord, decide_eq_false h]
  rfl

/-- SEC_TICK counts by the row the word `w` selects, then requests the recompute and serves its own flag (R54). -/
theorem exec_secTick_of_wrapWord (s : State) (d : Bool) :
    ∃ t, exec (decodeWrap (wrapWord s.regs.value)) s = .next t ∧
      exec (.secTick d) s = .next { t with regs := { t.regs with dirty := true, pendSec := false } } := by
  simp only [exec, execSecTick, Regs.secTick]
  by_cases h : signed16 s.regs.value + 1 > valueMax
  · rw [decodeWrap_wrapWord_wrap h, if_pos h]
    exact ⟨_, rfl, rfl⟩
  · rw [decodeWrap_wrapWord_inc h, if_neg h]
    exact ⟨_, rfl, rfl⟩

/-! ### Format SIGN -/

/-- The row the sign word selects is the renderer `Render` uses (R53). -/
theorem render_of_signWord (c : Config) (v : Value) :
    decodeSign (signWord v) = .renderPos ∧ render c v = renderPos c v ∨
      decodeSign (signWord v) = .renderNeg ∧ render c v = renderNeg c v := by
  unfold signWord render
  cases v.getLsbD 15 with
  | false => exact .inl ⟨rfl, rfl⟩
  | true => exact .inr ⟨rfl, rfl⟩

/-! ### Magnitude -/

/-- The magnitude's code: complement and increment, modulo `2^16` (R56). -/
theorem mag_toNat (v : Value) : (mag v).toNat = ((2 ^ 16 - 1 - v.toNat) + 1) % 2 ^ 16 := by
  rw [mag, BitVec.toNat_add, BitVec.toNat_not]
  rfl

end Sys2Proof.Machine

/-! SUPPORT. The two hardware-abstraction calls (`30_encoding.md` R61), bit by bit, and what the listed calls come to. -/

namespace Sys2Proof.Machine

/-! ### One line of a common-line word -/

/-- The bits of a one-hot word (R48). -/
theorem getLsbD_onehot4 (k : Cursor) {j : Nat} (hj : j < 4) : (onehot4 k).getLsbD j = decide (j = k.toNat) := by
  rcases cursor_cases k with rfl | rfl | rfl | rfl <;> interval_cases j <;> rfl

/-- The word `com` with line `i` set to `active`. -/
def setLine (com : ComSel) (i : Cursor) (active : Bool) : ComSel :=
  if active then com ||| onehot4 i else com &&& ~~~onehot4 i

/-- Setting a line writes that line's bit and keeps the others. -/
theorem getLsbD_setLine (com : ComSel) (i : Cursor) (active : Bool) {j : Nat} (hj : j < 4) :
    (setLine com i active).getLsbD j = if j = i.toNat then active else com.getLsbD j := by
  have bit := getLsbD_onehot4 i hj
  cases active with
  | false =>
    rw [setLine, if_neg (by decide), BitVec.getLsbD_and, BitVec.getLsbD_not, bit]
    by_cases h : j = i.toNat <;> simp [h, hj]
  | true =>
    rw [setLine, if_pos rfl, BitVec.getLsbD_or, bit]
    by_cases h : j = i.toNat <;> simp [h]

/-- Lighting one line of a dark word gives its one-hot word. -/
theorem setLine_zero_true (i : Cursor) : setLine 0b0000 i true = onehot4 i := BitVec.zero_or

/-- Clearing the four lines gives the dark word. -/
theorem setLine_all_false (com : ComSel) :
    setLine (setLine (setLine (setLine com 0 false) 1 false) 2 false) 3 false = 0b0000 := by
  apply BitVec.eq_of_getLsbD_eq
  intro j hj
  simp only [getLsbD_setLine _ _ _ hj]
  interval_cases j <;> rfl

/-! ### The calls -/

/-- `setCommonLine` writes one line and nothing else. -/
theorem apply_setCommonLine (r : Regs) (i : Cursor) (active : Bool) :
    HalCall.apply r (.setCommonLine i active) = { r with comOut := setLine r.comOut i active } := rfl

/-- `setSegmentBus` writes the bus and nothing else. -/
theorem apply_setSegmentBus (r : Regs) (p : SegPat) :
    HalCall.apply r (.setSegmentBus p) = { r with segOut := p } := rfl

/-- Calls one list after another. -/
theorem halApply_append (xs ys : List HalCall) (r : Regs) :
    halApply (xs ++ ys) r = halApply ys (halApply xs r) := List.foldl_append

/-- `setCommonLine(j, false)` for all `j` turns every line off and leaves the bus. -/
theorem halApply_halLinesOff (r : Regs) : halApply halLinesOff r = { r with comOut := 0b0000 } := by
  rw [← setLine_all_false r.comOut]
  rfl

/-- The calls of MUX_DRIVE have its effect. -/
theorem halApply_halDrive (r : Regs) : halApply (halDrive r) r = r.muxDrive := by
  rw [halDrive, halApply_append, halApply_halLinesOff, Regs.muxDrive, ← setLine_zero_true]
  rfl

/-- The calls of MUX_BLANK have its effect. -/
theorem halApply_halBlank (r : Regs) : halApply halBlank r = r.muxBlank := by
  rw [halBlank, halApply_append, halApply_halLinesOff]
  rfl

end Sys2Proof.Machine

/-! SUPPORT. The statements of `30_encoding.md` on magnitude, hardware-abstraction calls and selectors, settled. -/

namespace Sys2Proof.Machine

/-- Settles O14: the code of the magnitude, and its value for a negative word (R56). -/
theorem magnitudeIsUnsignedNegation : Obligations.MagnitudeIsUnsignedNegation :=
  fun v h => ⟨mag_toNat v, mag_toNat_of_neg h⟩

/-- Settles O27: each call by its bits, the call lists by their net effect (R61). -/
theorem halCallsHaveTheNetEffect : Obligations.HalCallsHaveTheNetEffect := by
  intro r
  refine ⟨apply_setSegmentBus r, fun i active => ?_, halApply_halDrive r, halApply_halBlank r⟩
  refine ⟨setLine r.comOut i active, apply_setCommonLine r i active, ?_, fun j hj hne => ?_⟩
  · rw [getLsbD_setLine _ _ _ i.isLt, if_pos rfl]
  · rw [getLsbD_setLine _ _ _ hj, if_neg hne]

/-- Settles O32: DEBOUNCE completes, and equals the case its word selects (R51). -/
theorem debounceRunsTheSelectedCase : Obligations.DebounceRunsTheSelectedCase := by
  refine ⟨decodeDbsel_pressed, rfl, rfl, fun s => ?_⟩
  obtain ⟨t, ht⟩ := exec_completes .debounce s
  exact ⟨t, (exec_decodeDbsel_dbselWord s).trans ht, ht⟩

/-- Settles O37: SEC_TICK by the wrap word, RECOMPUTE by the sign word (R53, R54). -/
theorem selectorsChooseTheCounterAndRenderCase : Obligations.SelectorsChooseTheCounterAndRenderCase := by
  refine ⟨⟨rfl, rfl, rfl, rfl⟩, fun s d => ⟨exec_secTick_of_wrapWord s d, ?_, msb_iff_neg s.regs.value⟩⟩
  exact ⟨s.withRegs (s.regs.recompute Config.cfg), rfl, render_of_signWord Config.cfg s.regs.value⟩

end Sys2Proof.Machine

/-! SUPPORT. The display buffer: the digits RENDER_NEG shows, RECOMPUTE as an operation, and decoding a rendered buffer
(`41_display_buffer.md` R67 to R69, R71). -/

namespace Sys2Proof.Machine

/-! ### The digits of a negative word -/

/-- RENDER_NEG by digits of the unsigned negation (R68 with R56). -/
theorem renderNeg_eq_of_neg (c : Config) {v : Value} (h : signed16 v < 0) :
    renderNeg c v =
      { p0 := minus
        p1 := encDigit c (bcd (digit (- signed16 v).toNat 2))
        p2 := encDigit c (bcd (digit (- signed16 v).toNat 1))
        p3 := encDigit c (bcd (digit (- signed16 v).toNat 0)) } := by
  rw [renderNeg_eq, ← mag_toNat_of_neg h, Int.toNat_natCast]

/-! ### RECOMPUTE -/

/-- A second RECOMPUTE changes nothing (R69). -/
theorem recompute_recompute (c : Config) (r : Regs) : (r.recompute c).recompute c = r.recompute c := rfl

/-- RECOMPUTE as an operation: its effect on the registers, the rest of the state kept. -/
theorem exec_recompute (s : State) : exec .recompute s = .next (s.withRegs (s.regs.recompute Config.cfg)) := rfl

/-- The arbiter selects RECOMPUTE for the request word 001 only (R107). -/
theorem arb_eq_recompute_iff (pendMux pendSec dirty : Bool) :
    arb pendMux pendSec dirty = .recompute ↔ pendMux = false ∧ pendSec = false ∧ dirty = true := by
  revert pendMux pendSec dirty
  decide

/-- The operation of an unreset edge is the arbiter's. -/
theorem edgeInstr_of_unreset {s : State} (h : s.sample.rst = false) :
    s.edgeInstr = arb s.regs.pendMux s.regs.pendSec s.regs.dirty := by
  rw [State.edgeInstr, if_neg (by simp [h])]

/-! ### Decoding a slot -/

/-- ENC_DIGIT of a decimal digit, by the table (R62). -/
theorem encDigit_bcd (c : Config) {d : Nat} (h : d < 10) : encDigit c (bcd d) = c.segTable[d] := by
  rw [encDigit_of_lt c (by rwa [bcd_toNat h])]
  simp only [bcd_toNat h]

/-- With a legal table two decimal digits of one pattern are equal. -/
theorem encDigit_bcd_inj {c : Config} (hc : c.LegalTable) {d e : Nat} (hd : d < 10) (he : e < 10)
    (h : encDigit c (bcd d) = encDigit c (bcd e)) : d = e := by
  rw [encDigit_bcd c hd, encDigit_bcd c he, ← Vector.getElem_toList (by simpa using hd),
    ← Vector.getElem_toList (by simpa using he)] at h
  exact hc.1.getElem_inj_iff.mp h

/-- With a legal table `dec` reads back the digit encoded. -/
theorem dec_encDigit {c : Config} (hc : c.LegalTable) {d : Nat} (hd : d < 10) :
    dec c (encDigit c (bcd d)) = some d := by
  rw [dec, List.find?_range_eq_some]
  refine ⟨beq_self_eq_true _, List.mem_range.mpr hd, fun e he => ?_⟩
  have ne : encDigit c (bcd e) ≠ encDigit c (bcd d) := fun h =>
    absurd (encDigit_bcd_inj hc (by omega) hd h) (by omega)
  simp [ne]

/-- With a legal table a digit's pattern is not the minus sign. -/
theorem encDigit_ne_minus {c : Config} (hc : c.LegalTable) {d : Nat} (hd : d < 10) :
    encDigit c (bcd d) ≠ minus := (hc.2 _ (encDigit_mem c hd)).1

/-! ### Decoding a buffer -/

/-- Three decimal digits add up to the number modulo 1000. -/
theorem three_digits (m : Nat) : 100 * digit m 2 + 10 * digit m 1 + digit m 0 = m % 1000 := by
  simp only [digit]
  omega

/-- Four decimal digits add up to the number modulo 10000. -/
theorem four_digits (m : Nat) : 1000 * digit m 3 + (m % 1000) = m % 10000 := by
  simp only [digit]
  omega

/-- Decoding what RENDER_NEG shows, for every word: minus the magnitude modulo 1000. -/
theorem unrender_renderNeg {c : Config} (hc : c.LegalTable) (v : Value) :
    unrender c (renderNeg c v) = some (-(((mag v).toNat % 1000 : Nat) : Int)) := by
  rw [renderNeg_eq, ← three_digits]
  simp [unrender, dec_encDigit hc (digit_lt _ _)]

/-- Decoding what RENDER_POS shows, for every word: the unsigned word modulo 10000. -/
theorem unrender_renderPos {c : Config} (hc : c.LegalTable) (v : Value) :
    unrender c (renderPos c v) = some ((v.toNat % 10000 : Nat) : Int) := by
  rw [renderPos_eq, ← four_digits, ← three_digits]
  simp [unrender, dec_encDigit hc (digit_lt _ _), encDigit_ne_minus hc (digit_lt _ _)]

/-- Decoding the rendering of a word whose signed value is in the display's range gives that value (R71). -/
theorem unrender_render {c : Config} (hc : c.LegalTable) {v : Value} (hlo : -999 ≤ signed16 v)
    (hhi : signed16 v ≤ 9999) : unrender c (render c v) = some (signed16 v) := by
  by_cases h : signed16 v < 0
  · have hm := mag_toNat_of_neg h
    rw [render_of_neg c h, unrender_renderNeg hc, Nat.mod_eq_of_lt (by omega), hm, neg_neg]
  · have hn := toNat_of_nonneg (not_lt.mp h)
    rw [render_of_nonneg c (not_lt.mp h), unrender_renderPos hc, Nat.mod_eq_of_lt (by omega), hn]

/-- Zero takes the non-negative branch: four zeros. -/
theorem render_zero (c : Config) :
    render c (code16 0) = { p0 := encDigit c 0, p1 := encDigit c 0, p2 := encDigit c 0, p3 := encDigit c 0 } := by
  rw [render_of_nonneg c (by decide), renderPos_eq]
  rfl

end Sys2Proof.Machine

/-! SUPPORT. The statements of `41_display_buffer.md` on rendering, RECOMPUTE and the round-trip law, settled. -/

namespace Sys2Proof.Machine

/-- Settles O12: the four digits of R67, and the row the sign word 0 selects. -/
theorem renderPosShowsFourDigits : Obligations.RenderPosShowsFourDigits :=
  fun c v h => ⟨by rw [h]; rfl, renderPos_eq c v⟩

/-- Settles O13: the minus sign and three digits of R68, and the row the sign word 1 selects. -/
theorem renderNegShowsMinusAndThreeDigits : Obligations.RenderNegShowsMinusAndThreeDigits :=
  fun c v h => ⟨by rw [h]; rfl, renderNeg_eq_of_neg c ((msb_iff_neg v).mp h)⟩

/-- Settles O15: the whole effect of RECOMPUTE, its idempotence, and the edges that perform it (R69). -/
theorem recomputeReplacesTheWholeBuffer : Obligations.RecomputeReplacesTheWholeBuffer := by
  intro s
  refine ⟨exec_recompute s, fun t ht => ?_, fun hr => ?_⟩
  · rw [exec_recompute] at ht
    cases ht
    rw [exec_recompute, State.withRegs_regs, recompute_recompute]
    rfl
  · rw [edgeInstr_of_unreset hr, arb_eq_recompute_iff]

/-- Settles O17: the round-trip law of R71, through the signed value of the code. -/
theorem unrenderOfRenderIsTheValue : Obligations.UnrenderOfRenderIsTheValue := by
  intro c hc
  obtain ⟨-, -, -, table⟩ := hc
  refine ⟨fun i hlo hhi => ?_, render_zero c⟩
  have code : signed16 (code16 i) = i := signed16_code16 (by omega) (by omega)
  have decoded := unrender_render table (v := code16 i) (by omega) (by omega)
  rwa [code] at decoded

end Sys2Proof.Machine

/-! SUPPORT. The digit multiplexer: MUX_TICK and MUX_BLANK as operations, the edges that perform MUX_TICK and its flag after
one, and the common-line word a tick leaves (`42_digit_multiplexer.md` R74, R76, R78). -/

namespace Sys2Proof.Machine

/-! ### The operations -/

/-- MUX_TICK as an operation, whatever the open bits of its word. -/
theorem exec_muxTick (s : State) (pendSec dirty : Bool) :
    exec (.muxTick pendSec dirty) s = .next (s.withRegs (s.regs.muxTick Config.cfg s.sync.btnS2)) := rfl

/-- MUX_BLANK as an operation. -/
theorem exec_muxBlank (s : State) : exec .muxBlank s = .next (s.withRegs s.regs.muxBlank) := rfl

/-- A second MUX_BLANK changes nothing (R74). -/
theorem muxBlank_muxBlank (r : Regs) : r.muxBlank.muxBlank = r.muxBlank := rfl

/-- MUX_BLANK does the same whatever the buffer holds (R74). -/
theorem muxBlank_memWrite (r : Regs) (b : Buf) : (r.memWrite b).muxBlank = r.muxBlank.memWrite b := rfl

/-- The two-bit increment is the addition modulo 4 (R75). -/
theorem cursor_add_one (k : Cursor) : k + 1 = BitVec.ofNat 2 ((k.toNat + 1) % 4) := by
  apply BitVec.eq_of_toNat_eq
  rw [BitVec.toNat_add, BitVec.toNat_ofNat]
  exact (Nat.mod_mod _ 4).symm

/-! ### The edge of a tick -/

/-- The arbiter selects MUX_TICK exactly when the mux tick is pending (R107). -/
theorem exists_arb_eq_muxTick_iff (pendMux pendSec dirty : Bool) :
    (∃ a d, arb pendMux pendSec dirty = .muxTick a d) ↔ pendMux = true := by
  revert pendMux pendSec dirty
  decide

/-- The edge-detect signal, by the two flip-flops it compares (R100). -/
theorem em_eq_true_iff (y : Sync) : y.em = true ↔ y.muxS2 = true ∧ y.muxS3 = false := by
  simp [Sync.em]

/-- After an unreset edge the mux flag holds the capture of that edge alone: a flag set before is served. -/
theorem edge_pendMux (c : Config) {x : Sample} (b : Block) (h : x.rst = false) :
    (b.edge c x).regs.pendMux = b.sync.em := by
  rw [edge_regs c b h]

/-! ### The lines after a tick -/

/-- MUX_TICK lights the cursor's line or none. -/
theorem muxTick_comOut_cases (c : Config) (b : Bool) (r : Regs) :
    (r.muxTick c b).comOut = onehot4 r.cursor ∨ (r.muxTick c b).comOut = 0b0000 := by
  rw [muxTick_eq]
  exact ite_eq_or_eq _ _ _

/-- The one line set in a one-hot word is the cursor's (R48). -/
theorem eq_toNat_of_getLsbD_onehot4 {k : Cursor} {j : Nat} (h : (onehot4 k).getLsbD j = true) : j = k.toNat := by
  rw [getLsbD_onehot4 k (BitVec.lt_of_getLsbD h)] at h
  exact of_decide_eq_true h

end Sys2Proof.Machine

/-! SUPPORT. The statements of `42_digit_multiplexer.md` on MUX_TICK and MUX_BLANK, settled. -/

namespace Sys2Proof.Machine

/-- Settles O21: the effect of MUX_TICK field by field, the edges that perform it, and its flag after one (R76). -/
theorem muxTickEffect : Obligations.MuxTickEffect := by
  intro s a d
  refine ⟨?_, fun hr => ⟨?_, fun _ => ⟨_, step_eq_edge s, ?_⟩⟩⟩
  · rw [exec_muxTick, muxTick_eq, cursor_add_one]
    rfl
  · rw [edgeInstr_of_unreset hr, exists_arb_eq_muxTick_iff]
  · rw [State.endEdge_regs, State.withBlock_regs, edge_pendMux _ _ hr, em_eq_true_iff, State.block_sync]

/-- Settles O22: one-hot or dark, so two set bits are the same line (R78). -/
theorem atMostOneLineAfterATick : Obligations.AtMostOneLineAfterATick := by
  intro s t a d ht
  rw [exec_muxTick] at ht
  cases ht
  rw [State.withRegs_regs]
  have lines := muxTick_comOut_cases Config.cfg s.sync.btnS2 s.regs
  refine ⟨lines, fun i j hi hj => ?_⟩
  obtain oneHot | dark := lines
  · rw [oneHot] at hi hj
    rw [eq_toNat_of_getLsbD_onehot4 hi, eq_toNat_of_getLsbD_onehot4 hj]
  · simp [dark] at hi

/-- Settles O19: the effect of MUX_BLANK, the same for every buffer, idempotent, selected by the gate 0 (R74). -/
theorem muxBlankPutsEverythingOff : Obligations.MuxBlankPutsEverythingOff := by
  refine ⟨exec_muxBlank, fun s b => ⟨_, exec_muxBlank s, ?_, ?_⟩, rfl⟩
  · change exec .muxBlank (s.withRegs (s.regs.memWrite b)) = _
    rw [exec_muxBlank, State.withRegs_regs, muxBlank_memWrite]
    rfl
  · rw [exec_muxBlank, State.withRegs_regs, muxBlank_muxBlank]
    rfl

end Sys2Proof.Machine

/-! SUPPORT. The debounce and timeout FSM: the cases DB_COUNT and DB_HOLD0 under their operands, the countdown after DEBOUNCE case by
case, and DEBOUNCE as an operation (`43_debounce_timeout.md` R80 to R83). -/

namespace Sys2Proof.Machine

/-! ### The countdown -/

/-- Counting down from a nonzero countdown does not borrow (R81). -/
theorem countdown_sub_one_toNat {k : Countdown} (h : k ≠ 0) : (k - 1).toNat + 1 = k.toNat := by
  bv_omega

/-- Counting down ends at zero from one only (R81). -/
theorem countdown_sub_one_eq_zero_iff (k : Countdown) : k - 1 = 0 ↔ k = 1 := sub_eq_zero

/-- With the button pressed the countdown is the timeout, whatever it was (R80). -/
@[simp] theorem nextCountdown_pressed (c : Config) (k : Countdown) : nextCountdown c false k = c.timeout := rfl

/-- With the button released a nonzero countdown counts down (R81). -/
theorem nextCountdown_released (c : Config) {k : Countdown} (h : k ≠ 0) : nextCountdown c true k = k - 1 := by
  rw [nextCountdown, if_neg (by decide), if_pos h]

/-- With the button released the countdown stays at zero (R82). -/
@[simp] theorem nextCountdown_released_zero (c : Config) : nextCountdown c true 0 = 0 := rfl

/-- The countdown MUX_TICK leaves is DEBOUNCE's (R83). -/
theorem muxTick_countdown (c : Config) (b : Bool) (r : Regs) :
    (r.muxTick c b).countdown = nextCountdown c b r.countdown := by
  rw [muxTick_eq]

/-! ### The registers -/

/-- Writing back the countdown held changes nothing. -/
theorem setCountdown_of_eq {r : Regs} {k : Countdown} (h : r.countdown = k) : r.setCountdown k = r := by
  subst h
  rfl

/-- The flag `TIMED_OUT` is the countdown at zero (`10_state.md` R21). -/
theorem timedOut_iff (r : Regs) : r.timedOut = true ↔ r.countdown = 0 := beq_iff_eq

/-- After DB_REARM the registers are not timed out: the timeout constant is not zero (R80). -/
theorem timedOut_dbRearm (r : Regs) : (r.dbRearm Config.cfg).timedOut = false := by
  have timeout_ne_zero : Config.cfg.timeout ≠ 0 := by decide
  exact beq_eq_false_iff_ne.mpr timeout_ne_zero

/-! ### The operations -/

/-- DB_REARM as an operation, for both words that select it. -/
theorem exec_dbRearm (s : State) (z : Bool) : exec (.dbRearm z) s = .next (s.withRegs (s.regs.dbRearm Config.cfg)) := rfl

/-- DB_COUNT under its operands: the countdown less one, the free value of a borrow not reached. -/
theorem exec_dbCount {s : State} (h : s.regs.countdown ≠ 0) :
    exec .dbCount s = .next (s.withRegs (s.regs.setCountdown (s.regs.countdown - 1))) := by
  rw [exec, execDbCount, Regs.dbCount, if_neg h]

/-- DB_HOLD0 under its operands changes nothing. -/
theorem exec_dbHold0 {s : State} (h : s.regs.countdown = 0) : exec .dbHold0 s = .next s := by
  rw [exec, execDbHold0, Regs.dbHold0, setCountdown_of_eq h]
  rfl

/-- DEBOUNCE as an operation writes the next countdown and nothing else. -/
theorem exec_debounce (s : State) :
    exec .debounce s =
      .next (s.withRegs (s.regs.setCountdown (nextCountdown Config.cfg s.sync.btnS2 s.regs.countdown))) := by
  rw [exec, execDebounce, debounce_eq]

end Sys2Proof.Machine

/-! SUPPORT. The statements of `43_debounce_timeout.md` on the debounce FSM, settled. -/

namespace Sys2Proof.Machine

/-- Settles O28: the effect of DB_REARM, the flag after it, and the words `0z` that select it (R80). -/
theorem dbRearmSetsTheTimeout : Obligations.DbRearmSetsTheTimeout := by
  refine fun s z => ⟨exec_dbRearm s z, fun t ht => ?_, decodeDbsel_pressed z⟩
  rw [exec_dbRearm] at ht
  cases ht
  exact timedOut_dbRearm s.regs

/-- Settles O29: DB_COUNT without borrow, at zero from one only, selected by the word `10` (R81). -/
theorem dbCountDecrements : Obligations.DbCountDecrements := by
  intro s released running
  refine ⟨?_, s.regs.countdown - 1, exec_dbCount running, countdown_sub_one_toNat running,
    countdown_sub_one_eq_zero_iff _⟩
  rw [released, decodeDbsel_dbselWord_count running]

/-- Settles O30: the word `11` selects DB_HOLD0, which changes nothing, and DEBOUNCE performs the selected case (R82, R51). -/
theorem dbHoldKeepsZero : Obligations.DbHoldKeepsZero := by
  intro s released atZero
  have selected : decodeDbsel (dbselWord s.sync.btnS2 s.regs.countdown) = .dbHold0 := by
    rw [released, atZero, decodeDbsel_dbselWord_zero]
  have held := exec_dbHold0 atZero
  refine ⟨selected, held, (timedOut_iff s.regs).mpr atZero, ?_⟩
  rw [← exec_decodeDbsel_dbselWord, selected, held]

/-- Settles O31: the next countdown case by case, the frame of DEBOUNCE, and the same countdown after MUX_TICK (R83). -/
theorem debounceStateTable : Obligations.DebounceStateTable := by
  intro s
  refine ⟨nextCountdown Config.cfg s.sync.btnS2 s.regs.countdown, exec_debounce s, fun pressed => ?_,
    fun released running => ?_, fun released atZero => ?_,
    fun a d => ⟨_, exec_muxTick s a d, muxTick_countdown _ _ _⟩⟩
  · rw [pressed, nextCountdown_pressed]
  · rw [released, nextCountdown_released _ running, countdown_sub_one_toNat running]
  · rw [released, atZero, nextCountdown_released_zero]

end Sys2Proof.Machine

/-! SUPPORT. The seconds counter: the code of the next integer, `NEG` by the signed value, COUNT_INC inside the 16-bit range and
COUNT_WRAP as operations (`44_counter_clock.md` R87, R88). -/

namespace Sys2Proof.Machine

/-! ### The next value -/

/-- The code of the next integer is the next word, modulo `2^16` (R87). -/
theorem code16_signed16_add_one (v : Value) : code16 (signed16 v + 1) = v + 1 := by
  calc code16 (signed16 v + 1)
    _ = code16 (signed16 v) + 1 := BitVec.ofInt_add _ _
    _ = v + 1 := by rw [code16_signed16]

/-- A word whose signed value is below the 16-bit maximum is not the operand COUNT_INC excludes (log entry 9). -/
theorem ne_max_of_signed16_lt {v : Value} (h : signed16 v < 32767) : v ≠ 0x7FFF := by
  rintro rfl
  exact absurd h (by decide)

/-- Below the 16-bit maximum the next word has the next signed value: no overflow (R87). -/
theorem signed16_add_one {v : Value} (h : signed16 v < 32767) : signed16 (v + 1) = signed16 v + 1 := by
  obtain ⟨lower, -⟩ := signed16_bounds v
  rw [← code16_signed16_add_one, signed16_code16 (by omega) (by omega)]

/-- The flag `NEG` is the sign of the value (`10_state.md` R21). -/
theorem neg_iff (r : Regs) : r.neg = true ↔ signed16 r.value < 0 := msb_iff_neg r.value

/-- Zero is not negative. -/
theorem neg_setValue_zero (r : Regs) : (r.setValue 0).neg = false := BitVec.getLsbD_zero

/-! ### The registers -/

/-- COUNT_INC below the 16-bit maximum: the next word, the free value of an overflow not reached. -/
theorem countInc_eq {r : Regs} (h : signed16 r.value < 32767) : r.countInc = r.setValue (r.value + 1) := by
  rw [Regs.countInc, if_neg (ne_max_of_signed16_lt h), code16_signed16_add_one]

/-- With legal parameters the signed value after COUNT_WRAP is the minimum (R88). -/
theorem signed16_countWrap {c : Config} (hc : c.Legal) (r : Regs) : signed16 (r.countWrap c).value = c.valueMin := by
  obtain ⟨minimum, -⟩ := hc
  rw [Regs.countWrap, Regs.setValue_value, signed16_code16 (by omega) (by omega)]

/-! ### The operations -/

/-- COUNT_INC as an operation, below the 16-bit maximum. -/
theorem exec_countInc {s : State} (h : signed16 s.regs.value < 32767) :
    exec .countInc s = .next (s.withRegs (s.regs.setValue (s.regs.value + 1))) := by
  rw [exec, execCountInc, countInc_eq h]

/-- COUNT_WRAP as an operation: the code of the default minimum, -999. -/
theorem exec_countWrap (s : State) : exec .countWrap s = .next (s.withRegs (s.regs.setValue 0xFC19)) := by
  have minimum : code16 Config.cfg.valueMin = 0xFC19 := by decide
  rw [exec, execCountWrap, Regs.countWrap, minimum]

end Sys2Proof.Machine

/-! SUPPORT. The statements of `44_counter_clock.md` on COUNT_INC and COUNT_WRAP, settled. -/

namespace Sys2Proof.Machine

/-- Settles O34: up to the maximum the word `w = 0` selects COUNT_INC, which stores the next word; a result of 0 comes from a
negative value (R87). -/
theorem countIncAddsOne : Obligations.CountIncAddsOne := by
  intro s upToMax
  have below : signed16 s.regs.value < 32767 := by omega
  have next := signed16_add_one below
  refine ⟨decodeWrap_wrapWord_inc (not_lt.mpr upToMax), s.regs.value + 1, exec_countInc below, next,
    BitVec.toNat_add _ _, fun zero => ?_⟩
  rw [zero] at next ⊢
  have before : signed16 s.regs.value + 1 = 0 := next.symm
  exact ⟨(neg_iff s.regs).mpr (by omega), neg_setValue_zero s.regs⟩

/-- Settles O35: COUNT_WRAP stores the minimum, whose sign is `NEG`; above the maximum the word `w = 1` selects it (R88). -/
theorem countWrapStoresTheMinimum : Obligations.CountWrapStoresTheMinimum := by
  refine ⟨fun s => ⟨exec_countWrap s, decodeWrap_wrapWord_wrap⟩, fun c r legal => ?_⟩
  have stored := signed16_countWrap legal r
  refine ⟨stored, ?_⟩
  rw [msb_iff_neg, stored]

end Sys2Proof.Machine

/-! SUPPORT. The idle sequencer: the request word `000`, the edges that perform IDLE and the registers after one
(`45_idle_loop.md` R93). -/

namespace Sys2Proof.Machine

/-- IDLE as an operation changes nothing. -/
theorem exec_idle (s : State) : exec .idle s = .next s := rfl

/-- The request word is `000` exactly when none of the three request flags is set (`10_state.md` R21). -/
theorem Regs.req_eq_zero_iff (r : Regs) :
    r.req = 0b000 ↔ r.pendMux = false ∧ r.pendSec = false ∧ r.dirty = false := by
  rw [← not_iff_not, ← ne_eq, r.req_ne_zero]
  simp only [not_and_or, Bool.not_eq_false]

/-- The arbiter selects IDLE exactly when nothing is requested (R107). -/
theorem arb_eq_idle_iff (pendMux pendSec dirty : Bool) :
    arb pendMux pendSec dirty = .idle ↔ pendMux = false ∧ pendSec = false ∧ dirty = false := by
  revert pendMux pendSec dirty
  decide

/-- An unreset edge performs IDLE exactly with the request word `000` before it. -/
theorem edgeInstr_eq_idle_iff {s : State} (h : s.sample.rst = false) : s.edgeInstr = .idle ↔ s.regs.req = 0b000 := by
  rw [edgeInstr_of_unreset h, arb_eq_idle_iff, Regs.req_eq_zero_iff]

/-- An edge with nothing requested serves nothing. -/
theorem serve_of_req_zero (c : Config) (b : Bool) {r : Regs} (h : r.req = 0b000) : r.serve c b = r := by
  obtain ⟨noMux, noSec, clean⟩ := r.req_eq_zero_iff.mp h
  obtain ⟨mux, -⟩ | ⟨-, sec, -⟩ | ⟨-, -, dirty, -⟩ | ⟨-, -, -, served⟩ := serve_cases c b r
  · simp [noMux] at mux
  · simp [noSec] at sec
  · simp [clean] at dirty
  · exact served

/-- After an unreset edge with nothing requested the registers are those before it, but for the edge's captures. -/
theorem edge_regs_of_req_zero (c : Config) {x : Sample} {b : Block} (h : x.rst = false) (idle : b.regs.req = 0b000) :
    (b.edge c x).regs = { b.regs with pendMux := b.sync.em, pendSec := b.sync.es } := by
  obtain ⟨noMux, -, -⟩ := b.regs.req_eq_zero_iff.mp idle
  rw [edge_regs c b h, serve_of_req_zero c _ idle, noMux, Bool.and_false, Bool.or_false]

end Sys2Proof.Machine

/-! SUPPORT. The statement of `45_idle_loop.md` on IDLE, settled. -/

namespace Sys2Proof.Machine

/-- Settles O40: IDLE is the identity, an unreset edge performs it exactly with the request word `000`, and its registers
change by the captures alone (R93). -/
theorem idleChangesNothing : Obligations.IdleChangesNothing := by
  refine fun s => ⟨exec_idle s, fun hr => ⟨edgeInstr_eq_idle_iff hr, fun idle => ⟨_, step_eq_edge s, ?_⟩⟩⟩
  rw [State.endEdge_regs, State.withBlock_regs]
  exact edge_regs_of_req_zero Config.cfg hr idle

end Sys2Proof.Machine

/-! SUPPORT. The statement of `60_exceptions.md` on faults and refusals, settled (R97). -/

namespace Sys2Proof.Machine

/-- There is no fault to raise: the type has no constructor (R97). -/
theorem isEmpty_fault : IsEmpty Fault := ⟨fun f => nomatch f⟩

/-- Settles O8: every operation answers a next state, every edge is the block's edge with its levels, and no fault exists
(R97). -/
theorem noOperationStops : Obligations.NoOperationStops :=
  ⟨exec_completes, fun s => ⟨_, step_eq_edge s⟩, isEmpty_fault⟩

end Sys2Proof.Machine

/-! SUPPORT. The operation code both ways: the round trip of every operation, and what each selector decoder gives back of its word
(`30_encoding.md` sections 1, 2 and 4; log entry 5). -/

namespace Sys2Proof

/-! ### From the operation to the code -/

/-- The round trip of the code, for every operation. -/
theorem decode_encode : ∀ i : Instr, Laws.RoundTrip.Statement i
  | .muxTick s d => Laws.RoundTrip.muxTick s d
  | .secTick d => Laws.RoundTrip.secTick d
  | .recompute => Laws.RoundTrip.recompute
  | .idle => Laws.RoundTrip.idle
  | .dbRearm z => Laws.RoundTrip.dbRearm z
  | .dbCount => Laws.RoundTrip.dbCount
  | .dbHold0 => Laws.RoundTrip.dbHold0
  | .muxDrive => Laws.RoundTrip.muxDrive
  | .muxBlank => Laws.RoundTrip.muxBlank
  | .renderPos => Laws.RoundTrip.renderPos
  | .renderNeg => Laws.RoundTrip.renderNeg
  | .countInc => Laws.RoundTrip.countInc
  | .countWrap => Laws.RoundTrip.countWrap
  | .enc0 => Laws.RoundTrip.enc0
  | .enc1 => Laws.RoundTrip.enc1
  | .enc2 => Laws.RoundTrip.enc2
  | .enc3 => Laws.RoundTrip.enc3
  | .enc4 => Laws.RoundTrip.enc4
  | .enc5 => Laws.RoundTrip.enc5
  | .enc6 => Laws.RoundTrip.enc6
  | .enc7 => Laws.RoundTrip.enc7
  | .enc8 => Laws.RoundTrip.enc8
  | .enc9 => Laws.RoundTrip.enc9
  | .encRsvdA d => Laws.RoundTrip.encRsvdA d
  | .encRsvdB d => Laws.RoundTrip.encRsvdB d
  | .encMinus => Laws.RoundTrip.encMinus
  | .encBlank => Laws.RoundTrip.encBlank
  | .cursorAdv => Laws.RoundTrip.cursorAdv
  | .debounce => Laws.RoundTrip.debounce
  | .captureMux => Laws.RoundTrip.captureMux
  | .captureSec => Laws.RoundTrip.captureSec
  | .btnSync => Laws.RoundTrip.btnSync
  | .step => Laws.RoundTrip.step
  | .reset => Laws.RoundTrip.reset

/-! ### From the code to the operation -/

/-- An operation that is well formed, of the format, with the selector byte. -/
abbrev Instr.HasCode (i : Instr) (f : Format) (w : Byte) : Prop :=
  i.wf = true ∧ i.format = f ∧ i.selector = w

/-- A request word is the selector of the operation it decodes to (R50). -/
theorem decodeReq_hasCode (w : BitVec 3) : (decodeReq w).HasCode .req (w.setWidth 8) := by
  revert w; decide

/-- The same in format DBSEL (R51). -/
theorem decodeDbsel_hasCode (w : BitVec 2) : (decodeDbsel w).HasCode .dbsel (w.setWidth 8) := by
  revert w; decide

/-- The same in format GATE (R52). -/
theorem decodeGate_hasCode (w : BitVec 1) : (decodeGate w).HasCode .gate (w.setWidth 8) := by
  revert w; decide

/-- The same in format SIGN (R53). -/
theorem decodeSign_hasCode (w : BitVec 1) : (decodeSign w).HasCode .sign (w.setWidth 8) := by
  revert w; decide

/-- The same in format WRAP (R54). -/
theorem decodeWrap_hasCode (w : BitVec 1) : (decodeWrap w).HasCode .wrap (w.setWidth 8) := by
  revert w; decide

/-- The same in format BCD (R47): a reserved code is carried whole. -/
theorem decodeBcd_hasCode (w : Bcd) : (decodeBcd w).HasCode .bcd (w.setWidth 8) := by
  revert w; decide

/-- The same in format RST (R49), for the one word that decodes. -/
theorem decodeRst_hasCode {w : BitVec 1} {i : Instr} (h : decodeRst w = .ok i) : i.HasCode .rst (w.setWidth 8) := by
  unfold decodeRst at h
  split at h
  · next requested =>
    cases h
    revert w; decide
  · cases h

/-- The same for the numbers of the rows without a word (log entry 5). -/
theorem decodeNone_hasCode (w : BitVec 3) : (decodeNone w).HasCode .none (w.setWidth 8) := by
  revert w; decide

/-- A byte without a bit above the format's width is its own low bits. -/
theorem setWidth_setWidth_of_lt {k : Nat} {w : Byte} (h : w.toNat < 2 ^ k) : (w.setWidth k).setWidth 8 = w := by
  apply BitVec.eq_of_toNat_eq
  rw [BitVec.toNat_setWidth, BitVec.toNat_setWidth, Nat.mod_eq_of_lt h, Nat.mod_eq_of_lt w.isLt]

/-- A selector byte is the selector of the operation it decodes to. -/
theorem decodeSelector_hasCode {f : Format} {w : Byte} {i : Instr} (h : decodeSelector f w = .ok i) : i.HasCode f w := by
  unfold decodeSelector at h
  split at h
  · cases h
  next narrow =>
  rw [← setWidth_setWidth_of_lt (not_le.mp narrow)]
  cases f with
  | req => cases h; exact decodeReq_hasCode _
  | dbsel => cases h; exact decodeDbsel_hasCode _
  | gate => cases h; exact decodeGate_hasCode _
  | sign => cases h; exact decodeSign_hasCode _
  | wrap => cases h; exact decodeWrap_hasCode _
  | bcd => cases h; exact decodeBcd_hasCode _
  | rst => exact decodeRst_hasCode h
  | none => cases h; exact decodeNone_hasCode _

/-- A format is named by its tag. -/
theorem ofTag_tag (f : Format) : Format.ofTag f.tag = some f := by
  cases f <;> rfl

/-- Only its tag names a format. -/
theorem tag_of_ofTag {t : Byte} {f : Format} (h : Format.ofTag t = some f) : f.tag = t := by
  unfold Format.ofTag at h
  apply BitVec.eq_of_toNat_eq
  split at h <;> cases h <;> exact Eq.symm ‹_›

/-- Tags are below eight. -/
theorem tag_toNat_lt (f : Format) : f.tag.toNat < 8 := by
  cases f <;> decide

/-- A byte from eight up is no tag. -/
theorem ofTag_of_le {t : Byte} (h : 8 ≤ t.toNat) : Format.ofTag t = none := by
  cases named : Format.ofTag t with
  | none => rfl
  | some f =>
    rw [← tag_of_ofTag named] at h
    exact absurd (tag_toNat_lt f) (not_lt.mpr h)

/-- What decodes is a selector byte and a tag, then the rest. -/
theorem decode_eq_ok {bytes rest : List Byte} {i : Instr} (h : decode bytes = .ok (i, rest)) :
    ∃ f w, decodeSelector f w = .ok i ∧ bytes = w :: Format.tag f :: rest := by
  match bytes, h with
  | w :: t :: tail, h =>
    simp only [decode] at h
    split at h
    · next f tagged =>
      split at h
      · next j decoded =>
        cases h
        exact ⟨f, w, decoded, by rw [tag_of_ofTag tagged]⟩
      · cases h
    · cases h

/-! ### Refusals -/

/-- A bit above the format's width is refused. -/
theorem decodeSelector_of_wide {f : Format} {w : Byte} (h : 2 ^ f.width ≤ w.toNat) :
    decodeSelector f w = .error .wideSelector := by
  unfold decodeSelector
  rw [if_pos h]

/-- The decoder answers with its selector decoder's refusal. -/
theorem decode_of_selector_error {f : Format} {w : Byte} {e : DecodeError} (h : decodeSelector f w = .error e)
    (rest : List Byte) : decode (w :: f.tag :: rest) = .error e := by
  simp only [decode, ofTag_tag, h]

end Sys2Proof

/-! SUPPORT. The statements of `30_encoding.md` on the operation code, settled. -/

namespace Sys2Proof.Machine

/-- Settles O1: by the round trip of each operation. -/
theorem decodeOfEncodeIsTheOperation : Obligations.DecodeOfEncodeIsTheOperation := decode_encode

/-- Settles O2: the selector decoders keep the format and the byte. -/
theorem encodeOfDecodeIsTheWord : Obligations.EncodeOfDecodeIsTheWord := by
  intro bytes i rest h
  obtain ⟨f, w, decoded, rfl⟩ := decode_eq_ok h
  obtain ⟨wf, format, selector⟩ := decodeSelector_hasCode decoded
  exact ⟨wf, by rw [encode, format, selector]; rfl⟩

/-- Settles O3: format by format, over the words of its width. -/
theorem selectorWordsMatchTheTable : Obligations.SelectorWordsMatchTheTable := by
  refine ⟨?req, ?dbsel, ?oneBit, ?bcd⟩
  case req => decide
  case dbsel => decide
  case oneBit => decide
  case bcd => decide

/-- Settles O4: each word is evaluated. -/
theorem writtenOutWordsDecode : Obligations.WrittenOutWordsDecode :=
  ⟨rfl, rfl, rfl, rfl, rfl, rfl, rfl, rfl, rfl, rfl, rfl, rfl, rfl⟩

/-- Settles O5: each refusal where the decoder meets it. -/
theorem otherWordsAreRefused : Obligations.OtherWordsAreRefused := by
  refine ⟨fun f w rest wide => ?_, fun w t rest noTag => ?_, fun rest => ?_, fun bytes short => ?_⟩
  · exact decode_of_selector_error (decodeSelector_of_wide wide) rest
  · simp only [decode, ofTag_of_le noTag]
  · exact decode_of_selector_error (f := .rst) rfl rest
  · match bytes, short with
    | [], _ => rfl
    | [_], _ => rfl

end Sys2Proof.Machine

/-! SUPPORT. The event level: traces one after another, the trace of one edge, and the pseudo-tokens (`60_exceptions.md` R112;
`30_encoding.md` R59, R60). -/

namespace Sys2Proof.Machine

/-! ### Traces -/

/-- The empty trace ends where it starts. -/
@[simp] theorem runTrace_nil (c : Config) (r : Regs) : runTrace c [] r = some r := rfl

/-- A trace runs its first token, then the others. -/
theorem runTrace_cons (c : Config) (k : Token) (ks : List Token) (r : Regs) :
    runTrace c (k :: ks) r = (k.fire c r).bind (runTrace c ks) := by
  rw [runTrace]
  cases k.fire c r <;> rfl

/-- A trace whose first token fires. -/
theorem runTrace_cons_of_fire {c : Config} {k : Token} {r r' : Regs} (h : k.fire c r = some r') (ks : List Token) :
    runTrace c (k :: ks) r = runTrace c ks r' := by
  rw [runTrace_cons, h, Option.bind_some]

/-- A trace after another runs from where the other ends. -/
theorem runTrace_append (c : Config) (ks ls : List Token) (r : Regs) :
    runTrace c (ks ++ ls) r = (runTrace c ks r).bind (runTrace c ls) := by
  induction ks generalizing r with
  | nil => rfl
  | cons k ks ih =>
    rw [List.cons_append, runTrace_cons, runTrace_cons, Option.bind_assoc]
    exact congrArg (k.fire c r).bind (funext ih)

/-- What every token keeps, every trace keeps. -/
theorem runTrace_keeps {c : Config} {P : Regs → Prop}
    (step : ∀ (k : Token) (r r' : Regs), P r → k.fire c r = some r' → P r') {ks : List Token} {r r' : Regs} (start : P r)
    (run : runTrace c ks r = some r') : P r' := by
  induction ks generalizing r with
  | nil => cases run; exact start
  | cons k ks ih =>
    rw [runTrace_cons] at run
    obtain ⟨q, fired, run⟩ := Option.bind_eq_some_iff.mp run
    exact ih (step k r q start fired) run

/-! ### The tokens -/

/-- A token fires with its effect where it is enabled. -/
theorem Token.fire_of_enabled (c : Config) {k : Token} {r : Regs} (h : k.enabled r = true) :
    k.fire c r = some (k.effect c r) := Token.fire_eq_some.mpr ⟨h, rfl⟩

/-- A captured mux pulse is always legal. -/
@[simp] theorem fire_plusM (c : Config) (r : Regs) : Token.plusM.fire c r = some (r.setPendMux true) := rfl

/-- A captured seconds pulse is always legal. -/
@[simp] theorem fire_plusS (c : Config) (r : Regs) : Token.plusS.fire c r = some (r.setPendSec true) := rfl

/-! ### The trace of an edge -/

/-- The operation's token of an unreset edge is legal and performs what the edge serves. -/
theorem fire_edgeToken (c : Config) {x : Sample} (b : Block) (h : x.rst = false) :
    (b.edgeToken x).fire c b.regs = some (b.regs.serve c b.sync.btnS2) := by
  rw [Token.fire_eq_some]
  obtain ⟨mux, served⟩ | ⟨noMux, sec, served⟩ | ⟨noMux, noSec, dirty, served⟩ | ⟨noMux, noSec, clean, served⟩ :=
    serve_cases c b.sync.btnS2 b.regs <;> rw [served]
  · simp [Block.edgeToken, h, mux, Token.enabled, Token.effect]
  · simp [Block.edgeToken, h, noMux, sec, Token.enabled, Token.effect]
  · simp [Block.edgeToken, h, noMux, noSec, dirty, Token.enabled, Token.effect]
  · have idle : b.regs.req = 0b000 := b.regs.req_eq_zero_iff.mpr ⟨noMux, noSec, clean⟩
    simp [Block.edgeToken, h, noMux, noSec, clean, idle, Token.enabled, Token.effect]

/-- The capture tokens of an edge set the flags of the detected pulses. -/
theorem runTrace_captures (c : Config) (em es : Bool) (r : Regs) :
    runTrace c ((if em then [.plusM] else []) ++ (if es then [.plusS] else [])) r =
      some ((r.captureMux em).captureSec es) := by
  cases em <;> cases es <;> rfl

/-- Serving leaves no mux flag: MUX_TICK clears it, and nothing else is served while it is set. -/
@[simp] theorem serve_pendMux (c : Config) (b : Bool) (r : Regs) : (r.serve c b).pendMux = false := by
  obtain ⟨-, served⟩ | ⟨noMux, -, served⟩ | ⟨noMux, -, -, served⟩ | ⟨noMux, -, -, served⟩ := serve_cases c b r <;>
    rw [served]
  · rw [muxTick_eq]
  · rw [secTick_eq]; exact noMux
  · exact noMux
  · exact noMux

/-- Serving leaves the seconds flag only behind a MUX_TICK. -/
@[simp] theorem serve_pendSec (c : Config) (b : Bool) (r : Regs) :
    (r.serve c b).pendSec = (r.pendSec && r.pendMux) := by
  obtain ⟨mux, served⟩ | ⟨noMux, -, served⟩ | ⟨-, noSec, -, served⟩ | ⟨-, noSec, -, served⟩ := serve_cases c b r <;>
    rw [served]
  · rw [muxTick_eq, mux, Bool.and_true]
  · rw [secTick_eq, noMux, Bool.and_false]
  · rw [noSec]; exact noSec
  · rw [noSec]; rfl

/-- The registers after an unreset edge are the served ones with the captures on top. -/
theorem edge_regs_eq_captures (c : Config) {x : Sample} (b : Block) (h : x.rst = false) :
    (b.edge c x).regs = ((b.regs.serve c b.sync.btnS2).captureMux b.sync.em).captureSec b.sync.es := by
  rw [edge_regs c b h, Regs.captureSec, Regs.captureMux, Regs.setPendMux_pendSec, serve_pendMux, serve_pendSec,
    Bool.or_false]
  rfl

/-- One edge refines the event level: its tokens are a legal trace to its registers (R112). -/
theorem runTrace_edgeTrace (c : Config) (x : Sample) (b : Block) :
    runTrace c (b.edgeTrace x) b.regs = some (b.edge c x).regs := by
  unfold Block.edgeTrace
  cases h : x.rst with
  | true =>
    rw [edge_of_rst c b h, Block.edgeToken, if_pos h]
    rfl
  | false =>
    rw [runTrace_cons_of_fire (fire_edgeToken c b h), if_neg (by decide), runTrace_captures, edge_regs_eq_captures c b h]

/-- A run of edges refines the event level. -/
theorem runTrace_trace (c : Config) (xs : List Sample) (b : Block) :
    runTrace c (Block.trace c xs b) b.regs = some (Block.run c xs b).regs := by
  induction xs generalizing b with
  | nil => rfl
  | cons x xs ih => rw [Block.trace, runTrace_append, runTrace_edgeTrace, Option.bind_some, ih, Block.run]

/-- What a step leaves is the block's edge with the presented levels. -/
theorem block_of_step {s t : State} (h : step s = .next t) : t.block = s.block.edge Config.cfg s.sample := by
  rw [step_eq_edge] at h
  cases h
  rfl

/-- What a step leaves in the registers. -/
theorem regs_of_step {s t : State} (h : step s = .next t) : t.regs = (s.block.edge Config.cfg s.sample).regs :=
  congrArg Block.regs (block_of_step h)

/-! ### The pseudo-tokens -/

/-- A tick does not read its own flag. -/
theorem muxTick_setPendMux (c : Config) (b p : Bool) (r : Regs) : (r.setPendMux p).muxTick c b = r.muxTick c b := by
  rw [muxTick_eq, muxTick_eq]
  rfl

/-- A captured mux pulse and its service are legal from every state. -/
theorem runTrace_plusM_m (c : Config) (b : Bool) (r : Regs) :
    runTrace c [.plusM, .m b] r = some (r.muxTick c b) := by
  rw [runTrace_cons_of_fire (fire_plusM c r), runTrace_cons_of_fire (Token.fire_of_enabled c rfl), runTrace_nil, Token.effect,
    muxTick_setPendMux]

/-- A seconds tick does not read its own flag. -/
theorem secTick_setPendSec (c : Config) (p : Bool) (r : Regs) : (r.setPendSec p).secTick c = r.secTick c := by
  rw [secTick_eq, secTick_eq]
  rfl

/-- A captured seconds pulse, its service and the recompute, where no mux tick is pending. -/
theorem runTrace_sec (c : Config) {r : Regs} (h : r.pendMux = false) :
    runTrace c [.plusS, .s, .r] r = some ((r.secTick c).recompute c) := by
  have sEnabled : Token.s.enabled (r.setPendSec true) = true := by simp [Token.enabled, h]
  have rEnabled : Token.r.enabled (r.secTick c) = true := by simp [Token.enabled, secTick_eq, h]
  rw [runTrace_cons_of_fire (fire_plusS c r), runTrace_cons_of_fire (Token.fire_of_enabled c sEnabled), Token.effect,
    secTick_setPendSec, runTrace_cons_of_fire (Token.fire_of_enabled c rEnabled)]
  rfl

/-- A trace repeated runs from where the last copy ended. -/
theorem runTrace_flatten_replicate (c : Config) (ks : List Token) (n : Nat) (r : Regs) :
    runTrace c (List.replicate n ks).flatten r = (fun o => o.bind (runTrace c ks))^[n] (some r) := by
  induction n with
  | zero => rfl
  | succ n ih =>
    rw [List.replicate_succ', List.flatten_append, List.flatten_singleton, runTrace_append, ih, Function.iterate_succ_apply']

/-- Repeating a trace that is always legal repeats its effect. -/
theorem iterate_bind_some {f : Regs → Option Regs} {g : Regs → Regs} (h : ∀ r, f r = some (g r)) (n : Nat) (r : Regs) :
    (fun o => o.bind f)^[n] (some r) = some (g^[n] r) := by
  induction n generalizing r with
  | zero => rfl
  | succ n ih => rw [Function.iterate_succ_apply, Function.iterate_succ_apply, Option.bind_some, h, ih]

end Sys2Proof.Machine

/-! SUPPORT. The statements on the event level and its traces (`60_exceptions.md` section 6; `30_encoding.md` section 5),
settled. -/

namespace Sys2Proof.Machine

/-- Settles O57: each edge is a legal trace to its registers, by induction over the edges. -/
theorem cycleLevelRefinesEventLevel : Obligations.CycleLevelRefinesEventLevel := by
  refine ⟨runTrace_trace, fun s t h => ?_⟩
  rw [regs_of_step h]
  exact runTrace_edgeTrace Config.cfg s.sample s.block

/-- Settles O58: the expansions token by token, the repetition by induction on the count. -/
theorem pseudoTokensRunTheirExpansion : Obligations.PseudoTokensRunTheirExpansion := by
  intro c r
  have repeated (x : Pseudo) (n : Nat) := runTrace_flatten_replicate c x.expand n r
  refine ⟨runTrace_plusM_m c false r, runTrace_plusM_m c true r, runTrace_sec c, repeated, fun n => ?_⟩
  exact (repeated .t1 n).trans (iterate_bind_some (runTrace_plusM_m c true) n r)

end Sys2Proof.Machine

/-! SUPPORT. The invariants of `10_state.md` R24: what a slot of a legal buffer can show, the reset state, and each operation of the
event level; an edge keeps them because its tokens do. -/

namespace Sys2Proof.Machine

/-! ### Patterns -/

/-- The entries of the table and the minus sign are lit patterns without the decimal point (`40_segment_encoder.md` R66). -/
theorem lit_of_minus_or_mem {c : Config} (hc : c.LegalTable) {p : SegPat} (h : p = minus ∨ p ∈ c.segTable.toList) :
    p ≠ blank ∧ p.getLsbD 7 = false := by
  obtain rfl | entry := h
  · decide
  · obtain ⟨-, ne_blank, noPoint⟩ := hc.2 p entry
    exact ⟨ne_blank, noPoint⟩

/-- Every slot of a legal buffer is the minus sign or an entry of the table. -/
theorem Inv.memRead_legal {c : Config} {r : Regs} (h : Inv c r) (k : Cursor) :
    r.memRead k = minus ∨ r.memRead k ∈ c.segTable.toList := by
  obtain ⟨slot0, slot1, slot2, slot3⟩ := h.buf_digits
  obtain eq | eq | eq | eq := bufRead_cases r.buf k <;> rw [Regs.memRead, eq]
  · exact slot0
  · exact .inr slot1
  · exact .inr slot2
  · exact .inr slot3

/-- The slots of a rendering are legal. -/
theorem render_slots (c : Config) (v : Value) :
    ((render c v).p0 = minus ∨ (render c v).p0 ∈ c.segTable.toList) ∧ (render c v).p1 ∈ c.segTable.toList ∧
      (render c v).p2 ∈ c.segTable.toList ∧ (render c v).p3 ∈ c.segTable.toList := by
  obtain ⟨negative, nonNegative⟩ := render_slot_zero c v
  exact ⟨(lt_or_ge (signed16 v) 0).imp negative nonNegative, render_low_slots c v⟩

/-- The next countdown stays within the timeout. -/
theorem nextCountdown_le (c : Config) (b : Bool) {k : Countdown} (h : k ≤ c.timeout) : nextCountdown c b k ≤ c.timeout := by
  unfold nextCountdown
  split
  · exact BitVec.le_refl _
  · split <;> bv_omega

/-! ### The operations -/

/-- The invariants hold in the reset state of a legal block. -/
theorem inv_reset {c : Config} (hc : c.Legal) : Inv c (Regs.reset c) := by
  obtain ⟨minimum, ⟨lower, upper⟩, -, table⟩ := hc
  have start : signed16 (code16 c.valueInit) = c.valueInit := by
    unfold valueMax at upper
    exact signed16_code16 (by omega) (by omega)
  have range : c.valueMin ≤ signed16 (code16 c.valueInit) ∧ signed16 (code16 c.valueInit) ≤ valueMax := by
    rw [start]; exact ⟨lower, upper⟩
  exact {
    value_range := range
    countdown_range := BitVec.le_refl _
    com_one_hot := List.mem_cons_self
    seg_legal := ⟨.inl rfl, BitVec.getLsbD_zero⟩
    dark_together := iff_of_true rfl rfl
    buf_digits := render_slots c _
    buf_of_one_value := ⟨_, range, rfl, render_minus_iff table _⟩
    clean_buf := fun _ => rfl }

/-- The invariants do not read the pending flags. -/
theorem Inv.setPend {c : Config} {r : Regs} (h : Inv c r) (pendMux pendSec : Bool) :
    Inv c { r with pendMux := pendMux, pendSec := pendSec } := { h with }

/-- MUX_TICK keeps the invariants: it shows a legal slot on one line, or nothing. -/
theorem Inv.muxTick {c : Config} (hc : c.Legal) {r : Regs} (h : Inv c r) (b : Bool) : Inv c (r.muxTick c b) := by
  obtain ⟨-, -, -, table⟩ := hc
  have slot := h.memRead_legal r.cursor
  obtain ⟨slotLit, slotPoint⟩ := lit_of_minus_or_mem table slot
  rw [muxTick_eq]
  by_cases dark : nextCountdown c b r.countdown = 0
  · simp only [dark, ne_eq, not_true, if_false]
    exact { h with
      countdown_range := Nat.zero_le _
      com_one_hot := List.mem_cons_self
      seg_legal := ⟨.inl rfl, BitVec.getLsbD_zero⟩
      dark_together := iff_of_true rfl rfl }
  · simp only [ne_eq, dark, not_false_eq_true, if_true]
    exact { h with
      countdown_range := nextCountdown_le c b h.countdown_range
      com_one_hot := onehot4_mem r.cursor
      seg_legal := ⟨.inr slot, slotPoint⟩
      dark_together := iff_of_false (onehot4_ne_zero r.cursor) slotLit }

/-- SEC_TICK keeps the invariants: the value stays in range, and the stale buffer is marked. -/
theorem Inv.secTick {c : Config} (hc : c.Legal) {r : Regs} (h : Inv c r) : Inv c (r.secTick c) := by
  obtain ⟨minimum, -⟩ := hc
  obtain ⟨lower, -⟩ := h.value_range
  rw [secTick_eq]
  exact { h with
    value_range := nextValue_range minimum lower
    clean_buf := fun clean => nomatch clean }

/-- RECOMPUTE keeps the invariants: the buffer is then the rendering of the value. -/
theorem Inv.recompute {c : Config} (hc : c.Legal) {r : Regs} (h : Inv c r) : Inv c (r.recompute c) := by
  obtain ⟨-, -, -, table⟩ := hc
  exact { h with
    buf_digits := render_slots c r.value
    buf_of_one_value := ⟨r.value, h.value_range, rfl, render_minus_iff table r.value⟩
    clean_buf := fun _ => rfl }

/-- Every step of the event level keeps the invariants. -/
theorem inv_of_fire {c : Config} (hc : c.Legal) (k : Token) (r r' : Regs) (h : Inv c r) (fired : k.fire c r = some r') :
    Inv c r' := by
  obtain ⟨-, rfl⟩ := Token.fire_eq_some.mp fired
  cases k with
  | plusM => exact h.setPend true r.pendSec
  | plusS => exact h.setPend r.pendMux true
  | m b => exact h.muxTick hc b
  | s => exact h.secTick hc
  | r => exact h.recompute hc
  | i => exact h
  | rst => exact inv_reset hc

/-- Every edge keeps the invariants, as a trace of the event level. -/
theorem inv_edge {c : Config} (hc : c.Legal) (x : Sample) {b : Block} (h : Inv c b.regs) : Inv c (b.edge c x).regs :=
  runTrace_keeps (inv_of_fire hc) h (runTrace_edgeTrace c x b)

/-- The parameters `exec` and `step` run with are legal. -/
theorem legal_cfg : Config.cfg.Legal := by decide

/-! ### The buffer over a run -/

/-- A run of edges, then another. -/
theorem run_append (c : Config) (xs ys : List Sample) (b : Block) :
    Block.run c (xs ++ ys) b = Block.run c ys (Block.run c xs b) := by
  induction xs generalizing b with
  | nil => rfl
  | cons x xs ih => exact ih (b.edge c x)

/-- Serving writes the buffer only as a rendering of the value before it. -/
theorem serve_buf_cases (c : Config) (b : Bool) (r : Regs) :
    (r.serve c b).buf = r.buf ∨ (r.serve c b).buf = render c r.value := by
  obtain ⟨-, served⟩ | ⟨-, -, served⟩ | ⟨-, -, -, served⟩ | ⟨-, -, -, served⟩ := serve_cases c b r <;> rw [served]
  · rw [muxTick_eq]; exact .inl rfl
  · rw [secTick_eq]; exact .inl rfl
  · exact .inr rfl
  · exact .inl rfl

/-- An edge leaves the buffer, renders the value before it, or resets to the rendering of the value after it. -/
theorem edge_buf_cases (c : Config) (x : Sample) (b : Block) :
    (b.edge c x).regs.buf = b.regs.buf ∨ (b.edge c x).regs.buf = render c b.regs.value ∨
      (b.edge c x).regs.buf = render c (b.edge c x).regs.value := by
  cases h : x.rst with
  | true => rw [edge_of_rst c b h]; exact .inr (.inr rfl)
  | false => rw [edge_regs c b h]; exact (serve_buf_cases c b.sync.btnS2 b.regs).imp_right .inl

/-- After a run from reset the buffer is the rendering of the value after some first part of the run. -/
theorem run_buf_of_one_value (c : Config) (xs : List Sample) : ∃ k, k ≤ xs.length ∧
    (Block.run c xs (Block.reset c)).regs.buf = render c (Block.run c (xs.take k) (Block.reset c)).regs.value := by
  induction xs using List.reverseRecOn with
  | nil => exact ⟨0, le_refl _, rfl⟩
  | append_singleton xs x ih =>
    obtain ⟨k, hk, earlier⟩ := ih
    rw [run_append, List.length_append, Block.run, Block.run]
    obtain kept | rendered | reset := edge_buf_cases c x (Block.run c xs (Block.reset c))
    · refine ⟨k, by omega, ?_⟩
      rw [kept, earlier, List.take_append_of_le_length hk]
    · refine ⟨xs.length, by omega, ?_⟩
      rw [rendered, List.take_left]
    · refine ⟨xs.length + 1, le_refl _, ?_⟩
      rw [reset, List.take_of_length_le (by simp), run_append, Block.run, Block.run]

end Sys2Proof.Machine

/-! SUPPORT. The statements on the invariants of the whole machine (`10_state.md` section 7; `20_memory.md` section 7), settled. -/

namespace Sys2Proof.Machine

/-- Settles O53: the reset state, for every legal parameter choice and the default. -/
theorem invariantsHoldAtReset : Obligations.InvariantsHoldAtReset :=
  ⟨fun _ => inv_reset, inv_reset legal_cfg⟩

/-- Settles O55: token by token at the event level, and at the cycle level by refinement. -/
theorem everyLegalBlockKeepsTheInvariants : Obligations.EveryLegalBlockKeepsTheInvariants :=
  fun _ hc => ⟨fun x _ h => inv_edge hc x h, inv_of_fire hc⟩

/-- Settles O54: a step is the block's edge, which keeps the invariants. -/
theorem stepKeepsTheInvariants : Obligations.StepKeepsTheInvariants := by
  intro s t h next
  rw [regs_of_step next]
  exact inv_edge legal_cfg s.sample h

/-- Settles O56: by induction over the run, the last edge first. -/
theorem bufferNeverMixesTwoValues : Obligations.BufferNeverMixesTwoValues := run_buf_of_one_value

end Sys2Proof.Machine

/-! SUPPORT. The step: the code an edge decodes, the edge around an operation, STEP case by case of the request flags, and that the
block's next state depends on the block and the sampled levels alone (`60_exceptions.md` sections 3 and 5; `10_state.md`
section 9). -/

namespace Sys2Proof.Machine

/-! ### The operation of an edge -/

/-- The arbiter decodes the request word (R50, R107). -/
theorem arb_eq_decodeReq (pendMux pendSec dirty : Bool) :
    arb pendMux pendSec dirty = decodeReq (reqWord pendMux pendSec dirty) := by
  revert pendMux pendSec dirty
  decide

/-- A request word, zero-extended and tagged, decodes to its row. -/
theorem decode_req (w : BitVec 3) (rest : List Byte) :
    decode (w.setWidth 8 :: Format.req.tag :: rest) = .ok (decodeReq w, rest) := by
  obtain ⟨wf, format, selector⟩ := decodeReq_hasCode w
  have roundTrip := decode_encode (decodeReq w) rest wf
  rwa [encode, format, selector] at roundTrip

/-- The code of an edge decodes to the edge's operation. -/
theorem decode_edgeCode (s : State) : decode s.edgeCode = .ok (s.edgeInstr, []) := by
  unfold State.edgeCode State.edgeInstr
  cases s.sample.rst with
  | true => rfl
  | false => rw [if_neg (by decide), if_neg (by decide), arb_eq_decodeReq]; exact decode_req _ []

/-- A step is its operation with the edge finished around it. -/
theorem step_of_exec {s t : State} (h : exec s.edgeInstr s = .next t) : step s = .next (s.finishEdge t) := by
  rw [step, h]

/-- At a reset edge nothing but the input levels is used up. -/
theorem finishEdge_of_rst {s : State} (h : s.sample.rst = true) (t : State) : s.finishEdge t = t.endEdge := by
  rw [State.finishEdge, if_pos h]

/-- At an unreset edge the captures and the shift come on top. -/
theorem finishEdge_of_unreset {s : State} (h : s.sample.rst = false) (t : State) :
    s.finishEdge t =
      ((t.withRegs ((t.regs.captureMux s.sync.em).captureSec s.sync.es)).withSync
        (((s.sync.shiftMux s.sample.tm).shiftSec s.sample.ts).shiftBtn s.sample.bn)).endEdge := by
  rw [State.finishEdge, if_neg (by simp [h])]

/-! ### STEP -/

/-- The row STEP is the step of the machine. -/
theorem step_eq_exec_step (s : State) : step s = exec .step s := step_eq_edge s

/-- STEP at a reset edge. -/
theorem exec_step_of_rst {s : State} (h : s.sample.rst = true) :
    exec .step s = .next { regs := Regs.reset Config.cfg, sync := Sync.reset, bench := s.bench.next } := by
  rw [exec, execStep, edge_of_rst _ _ h]
  rfl

/-- STEP at an unreset edge, by what the edge serves. -/
theorem exec_step_of_unreset {s : State} {r : Regs} (h : s.sample.rst = false)
    (served : s.regs.serve Config.cfg s.sync.btnS2 = r) :
    exec .step s = .next
      { regs := { r with pendMux := s.sync.em, pendSec := s.sync.es || (s.regs.pendSec && s.regs.pendMux) }
        sync :=
          { muxS1 := s.sample.tm, muxS2 := s.sync.muxS1, muxS3 := s.sync.muxS2,
            secS1 := s.sample.ts, secS2 := s.sync.secS1, secS3 := s.sync.secS2,
            btnS1 := s.sample.bn, btnS2 := s.sync.btnS1 }
        bench := s.bench.next } := by
  subst served
  rw [exec, execStep, edge_of_unreset _ _ h]
  rfl

/-- What an edge serves with a mux tick pending. -/
theorem serve_of_mux (c : Config) (b : Bool) {r : Regs} (mux : r.pendMux = true) : r.serve c b = r.muxTick c b := by
  rw [Regs.serve, if_pos mux]

/-- What an edge serves with only a seconds tick before the recompute. -/
theorem serve_of_sec (c : Config) (b : Bool) {r : Regs} (noMux : r.pendMux = false) (sec : r.pendSec = true) :
    r.serve c b = r.secTick c := by
  rw [Regs.serve, if_neg (by simp [noMux]), if_pos sec]

/-- What an edge serves with no tick pending and a recompute requested. -/
theorem serve_of_dirty (c : Config) (b : Bool) {r : Regs} (noMux : r.pendMux = false) (noSec : r.pendSec = false)
    (dirty : r.dirty = true) : r.serve c b = r.recompute c := by
  rw [Regs.serve, if_neg (by simp [noMux]), if_neg (by simp [noSec]), if_pos dirty]

/-! ### Independence of the bench -/

/-- Every operation's next block depends on the block and the coming levels alone. -/
theorem exec_block_congr {s u : State} (i : Instr) (hb : s.block = u.block) (hs : s.sample = u.sample) :
    ∃ s' u', exec i s = .next s' ∧ exec i u = .next u' ∧ s'.block = u'.block := by
  obtain ⟨b, e⟩ := s
  obtain ⟨b', e'⟩ := u
  obtain rfl : b = b' := hb
  cases i
  case btnSync => exact ⟨_, _, rfl, rfl, congrArg (fun x : Sample => Block.mk b.regs (b.sync.shiftBtn x.bn)) hs⟩
  case step => exact ⟨_, _, rfl, rfl, congrArg (fun x : Sample => b.edge Config.cfg x) hs⟩
  all_goals exact ⟨_, _, rfl, rfl, rfl⟩

/-- The step's next block depends on the block and the sampled levels alone. -/
theorem step_block_congr {s u : State} (hb : s.block = u.block) (hs : s.sample = u.sample) :
    ∃ s' u', step s = .next s' ∧ step u = .next u' ∧ s'.block = u'.block := by
  rw [step_eq_exec_step, step_eq_exec_step]
  exact exec_block_congr .step hb hs

end Sys2Proof.Machine

/-! SUPPORT. The statements of `60_exceptions.md` section 5 on the step, settled. -/

namespace Sys2Proof.Machine

/-- Settles O6: the edge's code decodes to its operation, and the edge is finished around it. -/
theorem stepRunsTheDecodedOperation : Obligations.StepRunsTheDecodedOperation := by
  intro s t i decoded done
  have code : decode s.edgeCode = .ok (i, []) := decoded
  rw [decode_edgeCode] at code
  cases code
  rw [step_of_exec done]
  refine ⟨fun reset => ?_, fun unreset => ?_⟩
  · rw [finishEdge_of_rst reset]
    rfl
  · rw [finishEdge_of_unreset unreset]
    rfl

/-- Settles O7: what the edge serves in each case of the flags, the row STEP, and the independence of the bench. -/
theorem stepIsTheClockEdgeFunction : Obligations.StepIsTheClockEdgeFunction := by
  intro s
  refine ⟨exec_step_of_rst, fun hr mux => ?_, fun hr noMux sec => ?_, fun hr noMux noSec dirty => ?_,
    fun hr noMux noSec clean => ?_, step_eq_exec_step s, ⟨_, step_eq_edge s, rfl⟩,
    fun u i hb hs => ⟨exec_block_congr i hb hs, step_block_congr hb hs⟩⟩
  · rw [exec_step_of_unreset hr (serve_of_mux _ _ mux), mux, Bool.and_true]
    rfl
  · rw [exec_step_of_unreset hr (serve_of_sec _ _ noMux sec), noMux, Bool.and_false, Bool.or_false]
    rfl
  · rw [exec_step_of_unreset hr (serve_of_dirty _ _ noMux noSec dirty), noMux, Bool.and_false, Bool.or_false]
    rfl
  · have idle : s.regs.req = 0b000 := s.regs.req_eq_zero_iff.mpr ⟨noMux, noSec, clean⟩
    rw [exec_step_of_unreset hr (serve_of_req_zero _ _ idle), noMux, Bool.and_false, Bool.or_false]
    rfl

end Sys2Proof.Machine

/-! SUPPORT. The segment encoder's operations and its properties on the digits (`40_segment_encoder.md` R62 to R66), and the digits
`Render` shows outside its range (`41_display_buffer.md` R70). -/

namespace Sys2Proof.Machine

/-! ### The encoder -/

/-- A code is the code of the number it is. -/
theorem bcd_of_toNat (d : Bcd) : bcd d.toNat = d := by
  rw [bcd, BitVec.ofNat_toNat, BitVec.setWidth_eq]

/-- A code below ten is the code of a digit. -/
theorem exists_digit {d : Bcd} (h : d.toNat < 10) : ∃ k, k < 10 ∧ bcd k = d := ⟨d.toNat, h, bcd_of_toNat d⟩

/-- The row a digit code selects computes ENC_DIGIT of that code (R62, R65). -/
theorem exec_decodeBcd (s : State) (d : Bcd) : exec (decodeBcd d) s = .next (s.encode d) := by
  have lt := d.isLt
  rw [← bcd_of_toNat d]
  interval_cases d.toNat <;> rfl

/-- A code matching `101x` is above the digits (R65). -/
theorem le_toNat_of_rsvdA {d : Bcd} (h : d &&& 0b1110 = 0b1010) : 10 ≤ d.toNat := by
  revert d; decide

/-- A code matching `11xx` is above the digits (R65). -/
theorem le_toNat_of_rsvdB {d : Bcd} (h : d &&& 0b1100 = 0b1100) : 10 ≤ d.toNat := by
  revert d; decide

/-- ENC_DIGIT of a reserved code shows `BLANK` and changes nothing else. -/
theorem encode_of_le (s : State) {d : Bcd} (h : 10 ≤ d.toNat) : s.encode d = s.showPattern blank := by
  rw [State.encode, encDigit_of_ge _ h]

/-! ### Digits of a remainder -/

/-- A remainder by a power of ten keeps the digits below that power. -/
theorem digit_mod_pow (m : Nat) {k n : Nat} (h : k < n) : digit (m % 10 ^ n) k = digit m k := by
  obtain ⟨j, rfl⟩ := Nat.exists_eq_add_of_lt h
  have split : 10 ^ (k + j + 1) = 10 ^ k * 10 ^ (j + 1) := by rw [← pow_add, add_assoc]
  have ten : 10 ∣ 10 ^ (j + 1) := dvd_pow_self 10 (by omega)
  rw [digit, digit, split, Nat.mod_mul_right_div_self, Nat.mod_mod_of_dvd _ ten]

/-- A non-negative value shows as its remainder modulo 10000 (R70). -/
theorem render_mod (c : Config) {v : Value} (h : 0 ≤ signed16 v) : render c v = render c (code16 (signed16 v % 10000)) := by
  have code : signed16 (code16 (signed16 v % 10000)) = signed16 v % 10000 := signed16_code16 (by omega) (by omega)
  have shown : (code16 (signed16 v % 10000)).toNat = v.toNat % 10 ^ 4 := by
    have before := toNat_of_nonneg h
    have after := toNat_of_nonneg (v := code16 (signed16 v % 10000)) (by omega)
    omega
  rw [render_of_nonneg c h, render_of_nonneg c (by omega), renderPos_eq, renderPos_eq, shown]
  simp only [digit_mod_pow v.toNat (show 3 < 4 by decide), digit_mod_pow v.toNat (show 2 < 4 by decide),
    digit_mod_pow v.toNat (show 1 < 4 by decide), digit_mod_pow v.toNat (show 0 < 4 by decide)]

end Sys2Proof.Machine

/-! SUPPORT. The statements of `40_segment_encoder.md`, and of `41_display_buffer.md` on `Render` outside the range, settled. -/

namespace Sys2Proof.Machine

/-- Settles O9: each row by evaluation of the default table, and the sixteen codes of format BCD. -/
theorem encoderResults : Obligations.EncoderResults :=
  fun s => ⟨rfl, rfl, rfl, rfl, rfl, rfl, rfl, rfl, rfl, rfl, rfl, rfl, exec_decodeBcd s⟩

/-- Settles O10: both reserved rows lie above the digits (R65). -/
theorem reservedDigitCodesGiveBlank : Obligations.ReservedDigitCodesGiveBlank := by
  refine fun s d => ⟨fun h => ?_, fun h => ?_⟩
  · exact congrArg Host.Outcome.next (encode_of_le s (le_toNat_of_rsvdA h))
  · exact congrArg Host.Outcome.next (encode_of_le s (le_toNat_of_rsvdB h))

/-- Settles O11: the properties of a legal table, carried to the encoder (R66). -/
theorem encoderIsInjectiveOnDigits : Obligations.EncoderIsInjectiveOnDigits := by
  intro c d e hc hd
  obtain ⟨-, -, -, table⟩ := hc
  obtain ⟨j, hj, rfl⟩ := exists_digit hd
  obtain ⟨shown, noPoint⟩ := lit_of_minus_or_mem table (.inr (encDigit_mem c hj))
  refine ⟨fun he same => ?_, encDigit_ne_minus table hj, shown, noPoint⟩
  obtain ⟨k, hk, rfl⟩ := exists_digit he
  exact congrArg bcd (encDigit_bcd_inj table hj hk same)

/-- Settles O16: the digits of a number are those of its remainder (R70). -/
theorem renderIsTotal : Obligations.RenderIsTotal := by
  intro c v
  refine ⟨render_mod c, fun h => ?_⟩
  have magnitude : ((- signed16 v) % 1000).toNat = (- signed16 v).toNat % 10 ^ 3 := by omega
  rw [render_of_neg c h, renderNeg_eq_of_neg c h, magnitude]
  simp only [digit_mod_pow _ (show 2 < 3 by decide), digit_mod_pow _ (show 1 < 3 by decide),
    digit_mod_pow _ (show 0 < 3 by decide)]

end Sys2Proof.Machine

/-! SUPPORT. Ticks in a row: the cursor, the buffer and the countdown after a list of mux ticks, and the output case a tick performs
(`42_digit_multiplexer.md` R73 to R79; `43_debounce_timeout.md` R84 to R86). -/

namespace Sys2Proof.Machine

/-! ### One tick -/

/-- A tick moves the cursor on by one (R75). -/
theorem muxTick_cursor (c : Config) (b : Bool) (r : Regs) : (r.muxTick c b).cursor = r.cursor + 1 := by
  rw [muxTick_eq]

/-- A tick leaves the buffer. -/
theorem muxTick_buf (c : Config) (b : Bool) (r : Regs) : (r.muxTick c b).buf = r.buf := by
  rw [muxTick_eq]

/-- A tick that leaves the countdown running lights the cursor's slot (R73). -/
theorem muxTick_outputs_lit {c : Config} {b : Bool} {r : Regs} (h : (r.muxTick c b).countdown ≠ 0) :
    (r.muxTick c b).comOut = onehot4 r.cursor ∧ (r.muxTick c b).segOut = r.memRead r.cursor := by
  rw [muxTick_countdown] at h
  rw [muxTick_eq]
  exact ⟨if_pos h, if_pos h⟩

/-- A tick that leaves the countdown at zero puts everything off (R74). -/
theorem muxTick_outputs_dark {c : Config} {b : Bool} {r : Regs} (h : (r.muxTick c b).countdown = 0) :
    (r.muxTick c b).comOut = 0b0000 ∧ (r.muxTick c b).segOut = blank := by
  rw [muxTick_countdown] at h
  rw [muxTick_eq]
  exact ⟨if_neg (not_not.mpr h), if_neg (not_not.mpr h)⟩

/-- A tick that leaves the countdown running is not dark. -/
theorem muxTick_comOut_ne_zero {c : Config} {b : Bool} {r : Regs} (h : (r.muxTick c b).countdown ≠ 0) :
    (r.muxTick c b).comOut ≠ 0b0000 := by
  obtain ⟨lit, -⟩ := muxTick_outputs_lit h
  rw [lit]
  exact onehot4_ne_zero r.cursor

/-- The row the gate word of a countdown selects, performed: MUX_DRIVE or MUX_BLANK (R52). -/
theorem exec_decodeGate (s : State) :
    exec (decodeGate (gateWord s.regs.countdown)) s =
      .next (s.withRegs (if s.regs.countdown ≠ 0 then s.regs.muxDrive else s.regs.muxBlank)) := by
  unfold gateWord
  by_cases h : s.regs.countdown = 0
  · rw [if_neg (not_not.mpr h), h]
    rfl
  · rw [if_pos h, bne_iff_ne.mpr h]
    rfl

/-! ### A list of ticks -/

/-- The registers after a list of mux ticks, by their button levels. -/
abbrev Regs.muxTicks (c : Config) (bs : List Bool) (r : Regs) : Regs := bs.foldl (fun r b => r.muxTick c b) r

/-- The first tick, then the others. -/
theorem muxTicks_cons (c : Config) (b : Bool) (bs : List Bool) (r : Regs) :
    r.muxTicks c (b :: bs) = (r.muxTick c b).muxTicks c bs := rfl

/-- Ticks move the cursor on by their number, modulo 4 (R79). -/
theorem muxTicks_cursor (c : Config) (bs : List Bool) (r : Regs) :
    (r.muxTicks c bs).cursor = BitVec.ofNat 2 (r.cursor.toNat + bs.length) := by
  induction bs generalizing r with
  | nil => simp
  | cons b bs ih =>
    rw [muxTicks_cons, ih, muxTick_cursor, cursor_add_one]
    apply BitVec.eq_of_toNat_eq
    simp only [BitVec.toNat_ofNat, List.length_cons]
    omega

/-- Ticks leave the buffer. -/
theorem muxTicks_buf (c : Config) (bs : List Bool) (r : Regs) : (r.muxTicks c bs).buf = r.buf := by
  induction bs generalizing r with
  | nil => rfl
  | cons b bs ih => rw [muxTicks_cons, ih, muxTick_buf]

/-! ### Released and pressed ticks -/

/-- Released ticks count down to zero and stay there (R85). -/
theorem iterate_released_countdown (c : Config) (r : Regs) (k : Nat) :
    ((Regs.muxTick c true)^[k] r).countdown.toNat = r.countdown.toNat - k := by
  induction k with
  | zero => rfl
  | succ k ih =>
    rw [Function.iterate_succ_apply', muxTick_countdown]
    generalize ((Regs.muxTick c true)^[k] r).countdown = m at *
    by_cases h : m = 0
    · subst h
      rw [nextCountdown_released_zero]
      simp only [BitVec.ofNat_eq_ofNat, BitVec.toNat_zero] at *
      omega
    · have counted := countdown_sub_one_toNat h
      rw [nextCountdown_released c h]
      omega

/-- A countdown is zero when its number is. -/
theorem countdown_eq_zero_iff (k : Countdown) : k = 0 ↔ k.toNat = 0 := by
  bv_omega

/-- The released tick before the countdown is used up lights a line (R85). -/
theorem iterate_released_lit (c : Config) {r : Regs} {k : Nat} (pos : 1 ≤ k) (h : k < r.countdown.toNat) :
    ((Regs.muxTick c true)^[k] r).comOut ≠ 0b0000 := by
  have left := iterate_released_countdown c r k
  obtain ⟨j, rfl⟩ := Nat.exists_eq_add_of_le' pos
  rw [Function.iterate_succ_apply'] at *
  exact muxTick_comOut_ne_zero (by rw [ne_eq, countdown_eq_zero_iff]; omega)

/-- From the tick that uses the countdown up, everything is off (R85). -/
theorem iterate_released_dark (c : Config) {r : Regs} {k : Nat} (pos : 1 ≤ k) (h : r.countdown.toNat ≤ k) :
    ((Regs.muxTick c true)^[k] r).comOut = 0b0000 ∧ ((Regs.muxTick c true)^[k] r).segOut = blank := by
  have left := iterate_released_countdown c r k
  obtain ⟨j, rfl⟩ := Nat.exists_eq_add_of_le' pos
  rw [Function.iterate_succ_apply'] at *
  exact muxTick_outputs_dark (by rw [countdown_eq_zero_iff]; omega)

/-- A pressed tick leaves the countdown at the timeout (R86). -/
theorem muxTick_pressed_countdown (c : Config) (r : Regs) : (r.muxTick c false).countdown = c.timeout := by
  rw [muxTick_countdown, nextCountdown_pressed]

/-! ### Edges without a tick -/

/-- Serving anything but a mux tick leaves the outputs (R77). -/
theorem serve_outputs (c : Config) (b : Bool) {r : Regs} (noMux : r.pendMux = false) :
    (r.serve c b).segOut = r.segOut ∧ (r.serve c b).comOut = r.comOut := by
  obtain ⟨mux, -⟩ | ⟨-, -, served⟩ | ⟨-, -, -, served⟩ | ⟨-, -, -, served⟩ := serve_cases c b r
  · simp [noMux] at mux
  · rw [served, secTick_eq]; exact ⟨rfl, rfl⟩
  · rw [served]; exact ⟨rfl, rfl⟩
  · rw [served]; exact ⟨rfl, rfl⟩

end Sys2Proof.Machine

/-! SUPPORT. The statements of `42_digit_multiplexer.md` and `43_debounce_timeout.md` on ticks in a row, settled. -/

namespace Sys2Proof.Machine

/-- Settles O18: the one-hot word of the cursor, by its bits (R73). -/
theorem muxDriveLightsTheCursorsDigit : Obligations.MuxDriveLightsTheCursorsDigit := by
  refine fun s => ⟨onehot4 s.regs.cursor, rfl, fun i hi => ?_⟩
  rw [getLsbD_onehot4 _ hi, decide_eq_true_iff]

/-- Settles O20: the two-bit increment (R75). -/
theorem cursorAdvancesModuloFour : Obligations.CursorAdvancesModuloFour :=
  fun s => ⟨s.regs.cursor + 1, rfl, BitVec.toNat_add _ _⟩

/-- Settles O23: an unreset edge without a mux tick serves nothing that writes the outputs (R77). -/
theorem outputsHoldBetweenTicks : Obligations.OutputsHoldBetweenTicks := by
  intro s t next hr noMux
  rw [regs_of_step next, edge_regs _ _ hr]
  exact serve_outputs Config.cfg s.sync.btnS2 noMux

/-- Settles O24: the cursor after a list of ticks (R79). -/
theorem cursorRotatesWithEveryTick : Obligations.CursorRotatesWithEveryTick := by
  intro c bs r
  rw [muxTicks_cursor, BitVec.toNat_ofNat]

/-- Settles O25: the last tick shows the slot of its cursor, in the buffer the ticks before left alone. -/
theorem ticksShowOneBufferInRotation : Obligations.TicksShowOneBufferInRotation := by
  refine fun c bs b r => ⟨fun lit => ?_, muxTick_outputs_dark⟩
  obtain ⟨line, slot⟩ := muxTick_outputs_lit lit
  rw [Regs.memRead, muxTicks_buf, muxTicks_cursor] at slot
  rw [muxTicks_cursor] at line
  exact ⟨line, slot⟩

/-- Settles O26: DEBOUNCE, the row its gate word selects, CURSOR_ADV, and the service of the flag (R76). -/
theorem muxTickRunsDebounceGateCursor : Obligations.MuxTickRunsDebounceGateCursor :=
  fun s a d => ⟨_, _, _, _, rfl, exec_decodeGate _, rfl, exec_muxTick s a d, rfl⟩

/-- Settles O33: released ticks count down from where they start; pressed ticks start them at the timeout (R85, R86). -/
theorem timeoutAfterExactlyNTicks : Obligations.TimeoutAfterExactlyNTicks := by
  refine ⟨fun c r k running => ?_, fun c r k positive => ?_, fun c r k positive => ?_⟩
  · rw [ne_eq, countdown_eq_zero_iff] at running
    exact ⟨iterate_released_countdown c r k, iterate_released_lit c,
      fun used => iterate_released_dark c (by omega) used⟩
  · have start := muxTick_pressed_countdown c r
    rw [← start] at positive ⊢
    have toNat_pos : (r.muxTick c false).countdown.toNat ≠ 0 := by rwa [ne_eq, ← countdown_eq_zero_iff]
    refine ⟨fun lit => ?_, fun used => (iterate_released_dark c (by omega) used).1⟩
    rcases Nat.eq_zero_or_pos k with rfl | pos
    · exact muxTick_comOut_ne_zero positive
    · exact iterate_released_lit c pos lit
  · have start := muxTick_pressed_countdown c ((Regs.muxTick c false)^[k] r)
    rw [Function.iterate_succ_apply']
    exact ⟨start, muxTick_comOut_ne_zero (by rwa [start])⟩

end Sys2Proof.Machine

/-! SUPPORT. The seconds tick as an operation, the signed value after it, and the value after ticks in a row
(`44_counter_clock.md` R89 to R91). -/

namespace Sys2Proof.Machine

/-- SEC_TICK as an operation, whatever the open bit of its word. -/
theorem exec_secTick (s : State) (d : Bool) : exec (.secTick d) s = .next (s.withRegs (s.regs.secTick Config.cfg)) := rfl

/-- Above the maximum the next value is the minimum (R91). -/
theorem signed16_nextValue_wrap {c : Config} (hc : c.Legal) {v : Value} (h : signed16 v + 1 > valueMax) :
    signed16 (nextValue c v) = c.valueMin := by
  obtain ⟨minimum, -⟩ := hc
  rw [nextValue, if_pos h, signed16_code16 (by omega) (by omega)]

/-- Up to the maximum the next value is the next integer (R87). -/
theorem signed16_nextValue_inc (c : Config) {v : Value} (h : signed16 v + 1 ≤ valueMax) :
    signed16 (nextValue c v) = signed16 v + 1 := by
  obtain ⟨lower, -⟩ := signed16_bounds v
  rw [nextValue, if_neg (not_lt.mpr h)]
  unfold valueMax at h
  exact signed16_code16 (by omega) (by omega)

/-- The next remainder: the successor, or zero at the end of the period. -/
theorem add_one_emod (k : Nat) {n : Int} (h : 0 < n) :
    ((k + 1 : Nat) : Int) % n = if (k : Int) % n + 1 < n then (k : Int) % n + 1 else 0 := by
  have lower := Int.emod_nonneg (k : Int) h.ne'
  have upper := Int.emod_lt_of_pos (k : Int) h
  rw [Nat.cast_add, Nat.cast_one, ← Int.emod_add_emod]
  split
  · next below => exact Int.emod_eq_of_lt (by omega) below
  · next last =>
    have full : (k : Int) % n + 1 = n := by omega
    rw [full, Int.emod_self]

/-- Ticks from the minimum: the minimum plus their number, modulo the period (R90). -/
theorem signed16_iterate_secTick {c : Config} (hc : c.Legal) {r : Regs} (start : r.value = code16 c.valueMin) (k : Nat) :
    signed16 ((Regs.secTick c)^[k] r).value = c.valueMin + (k : Int) % (9999 - c.valueMin + 1) := by
  have minimum := hc.1
  induction k with
  | zero =>
    rw [Function.iterate_zero_apply, start, signed16_code16 (by omega) (by omega), Nat.cast_zero, Int.zero_emod, add_zero]
  | succ k ih =>
    rw [Function.iterate_succ_apply', secTick_eq, add_one_emod k (by omega)]
    have last : signed16 ((Regs.secTick c)^[k] r).value + 1 ≤ valueMax ↔
        (k : Int) % (9999 - c.valueMin + 1) + 1 < 9999 - c.valueMin + 1 := by
      unfold valueMax
      omega
    split
    · next below =>
      rw [signed16_nextValue_inc c (last.mpr below), ih, add_assoc]
    · next wrap =>
      rw [signed16_nextValue_wrap hc (not_le.mp (mt last.mp wrap)), add_zero]

end Sys2Proof.Machine

/-! SUPPORT. The statements of `44_counter_clock.md` on SEC_TICK, and of the case operations on their own, settled. -/

namespace Sys2Proof.Machine

/-- Settles O36: the next value, below and above the maximum (R89, R91). -/
theorem secTickEffect : Obligations.SecTickEffect := by
  refine fun s d => ⟨nextValue Config.cfg s.regs.value, ?_, signed16_nextValue_wrap legal_cfg, signed16_nextValue_inc _⟩
  rw [exec_secTick, secTick_eq]
  rfl

/-- Settles O38: by induction on the ticks (R90). -/
theorem wrapLawVisitsEveryValue : Obligations.WrapLawVisitsEveryValue :=
  fun _ _ k hc start => signed16_iterate_secTick hc start k

/-- Settles O39: each case in any state; the free values are the witnesses where the rule excludes the operand. -/
theorem caseOperationsOnTheirOwn : Obligations.CaseOperationsOnTheirOwn :=
  fun _ => ⟨rfl, rfl, rfl, exec_dbCount, ⟨_, rfl⟩, fun below => ⟨_, exec_countInc below, signed16_add_one below⟩, ⟨_, rfl⟩⟩

end Sys2Proof.Machine

/-! SUPPORT. The ports, the captures, the arbiter, reset, and what each operation leaves alone (`10_state.md` R28, section 6;
`60_exceptions.md` R101 to R108; `70_reset_and_hazards.md` R125). -/

namespace Sys2Proof.Machine

/-! ### Ports -/

/-- Inverting a byte or not, bit by bit. -/
theorem getLsbD_segMask (invert : Bool) {k : Nat} (h : k < 8) :
    (if invert then (0xFF : BitVec 8) else 0x00).getLsbD k = invert := by
  cases invert <;> interval_cases k <;> rfl

/-- Inverting a common-line word or not, bit by bit. -/
theorem getLsbD_comMask (invert : Bool) {k : Nat} (h : k < 4) :
    (if invert then (0b1111 : BitVec 4) else 0b0000).getLsbD k = invert := by
  cases invert <;> interval_cases k <;> rfl

/-- `sleep_o` announces the request word `000` (R94). -/
theorem sleepO_iff (c : Config) (r : Regs) : (r.ports c).sleepO = true ↔ r.req = 0b000 := by
  rw [Regs.req_eq_zero_iff]
  simp [Regs.ports, and_assoc]

/-! ### Captures -/

/-- The seconds edge-detect signal, by the two flip-flops it compares (R100). -/
theorem es_eq_true_iff (y : Sync) : y.es = true ↔ y.secS2 = true ∧ y.secS3 = false := by
  simp [Sync.es]

/-- A flag after a capture: set by a detected edge, else as it was. -/
theorem capture_cases {P : Prop} {e : Bool} (he : e = true ↔ P) (flag : Bool) :
    (P → (e || flag) = true) ∧ (¬P → (e || flag) = flag) := by
  refine ⟨fun h => ?_, fun h => ?_⟩
  · rw [he.mpr h, Bool.true_or]
  · rw [Bool.eq_false_iff.mpr (mt he.mp h), Bool.false_or]

/-- The arbiter selects SEC_TICK exactly when the seconds tick is pending alone before the recompute (R107). -/
theorem exists_arb_eq_secTick_iff (pendMux pendSec dirty : Bool) :
    (∃ d, arb pendMux pendSec dirty = .secTick d) ↔ pendMux = false ∧ pendSec = true := by
  revert pendMux pendSec dirty
  decide

/-- A pending seconds tick waits behind a mux tick exactly when it is not served. -/
theorem waits_iff (pendMux pendSec : Bool) :
    (pendSec && pendMux) = true ↔ pendSec = true ∧ ¬(pendMux = false ∧ pendSec = true) := by
  revert pendMux pendSec
  decide

/-- After an unreset edge the seconds flag holds the capture of that edge, or a tick that a mux tick kept waiting. -/
theorem edge_pendSec (c : Config) {x : Sample} (b : Block) (h : x.rst = false) :
    (b.edge c x).regs.pendSec = (b.sync.es || (b.regs.pendSec && b.regs.pendMux)) := by
  rw [edge_regs c b h]

/-! ### The two ticks -/

/-- A mux tick and a seconds tick commute (R108). -/
theorem secTick_muxTick (c : Config) (b : Bool) (r : Regs) : (r.muxTick c b).secTick c = (r.secTick c).muxTick c b := by
  rw [secTick_eq, muxTick_eq, muxTick_eq, secTick_eq]
  rfl

/-! ### Reset -/

/-- RESET as an operation. -/
theorem exec_reset (s : State) : exec .reset s = .next (s.withBlock (Block.reset Config.cfg)) := rfl

/-- A step with `rst` sampled 1 is RESET with the levels used up (R125). -/
theorem step_of_rst {s : State} (h : s.sample.rst = true) :
    step s = .next (s.withBlock (Block.reset Config.cfg)).endEdge := by
  rw [step_eq_edge, edge_of_rst _ _ h]

/-- The registers after reset with the default parameters, written out (`10_state.md` section 8). -/
theorem regs_reset_cfg :
    Regs.reset Config.cfg =
      { value := 0x0000, buf := { p0 := 0x7E, p1 := 0x7E, p2 := 0x7E, p3 := 0x7E }, cursor := 0, countdown := 10,
        segOut := 0x00, comOut := 0b0000, pendMux := false, pendSec := false, dirty := false } := by
  decide

end Sys2Proof.Machine

/-! SUPPORT. The statements on the ports, the synchronizer, the arbiter, reset and the frames, settled. -/

namespace Sys2Proof.Machine

/-- Settles O41: each port bit by bit, and `sleep_o` by the request word (R28, R94). -/
theorem portsFollowTheRegisters : Obligations.PortsFollowTheRegisters := by
  refine fun c s => ⟨fun k hk => ?_, fun k hk => ?_, fun hr => ?_⟩
  · rw [Regs.ports, BitVec.getLsbD_xor, getLsbD_segMask _ hk]
  · rw [Regs.ports, BitVec.getLsbD_xor, getLsbD_comMask _ hk]
  · rw [sleepO_iff, edgeInstr_eq_idle_iff hr]

/-- Settles O42: the captures by their edge-detect signals (R101 to R103). -/
theorem synchronizerOperations : Obligations.SynchronizerOperations := by
  intro s
  obtain ⟨muxSet, muxKept⟩ := capture_cases (em_eq_true_iff s.sync) s.regs.pendMux
  obtain ⟨secSet, secKept⟩ := capture_cases (es_eq_true_iff s.sync) s.regs.pendSec
  exact ⟨rfl, _, _, rfl, rfl, muxSet, muxKept, secSet, secKept⟩

/-- Settles O43: the flags an unreset edge leaves, and the operation that serves a seconds tick (R104). -/
theorem captureWinsOverService : Obligations.CaptureWinsOverService := by
  intro s t next hr
  rw [regs_of_step next, edge_pendMux _ _ hr, edge_pendSec _ _ hr]
  refine ⟨rfl, fun es => ?_, fun noEs => ?_⟩
  · rw [State.block_sync, es, Bool.true_or]
  · rw [State.block_sync, noEs, Bool.false_or, ← not_exists, edgeInstr_of_unreset hr, exists_arb_eq_secTick_iff]
    exact waits_iff s.regs.pendMux s.regs.pendSec

/-- Settles O44: over the eight request words (R107). -/
theorem arbiterIsTheRequestDecode : Obligations.ArbiterIsTheRequestDecode :=
  fun m s d => ⟨arb_eq_decodeReq m s d, rfl, rfl, rfl, rfl⟩

/-- Settles O45: the two ticks commute on the registers (R108). -/
theorem ticksCommute : Obligations.TicksCommute := by
  refine fun s a d e => ⟨_, _, _, exec_muxTick s a d, exec_secTick _ e, exec_secTick s e, ?_⟩
  rw [exec_muxTick, State.withRegs_regs, State.withRegs_regs, secTick_muxTick]
  rfl

/-- Settles O52: the default table written out, and every parameter choice at a reset edge (R125). -/
theorem resetGivesTheResetTable : Obligations.ResetGivesTheResetTable := by
  intro s
  simp only [← regs_reset_cfg]
  refine ⟨exec_reset s, step_of_rst, rfl, rfl, fun c x b hr => ?_⟩
  rw [edge_of_rst c b hr]
  rfl

/-- Settles O59: operation by operation. -/
theorem partsOfOperationsFrame : Obligations.PartsOfOperationsFrame := by
  intro i s t done
  cases i <;> cases done <;> simp [Instr.format]
  case debounce => rw [debounce_eq]; exact ⟨rfl, fun _ => rfl⟩
  case dbRearm | dbCount | dbHold0 | muxDrive | muxBlank | cursorAdv | countInc | countWrap | captureMux | captureSec =>
    exact ⟨rfl, fun _ => rfl⟩
  case btnSync => rfl
  all_goals exact ⟨⟨rfl, rfl, rfl, rfl⟩, fun _ => rfl⟩

/-- Settles O60: the four rows of format REQ, each by its effect field by field. -/
theorem eachContextWritesItsOwnState : Obligations.EachContextWritesItsOwnState := by
  intro i s t req done
  cases i with
  | muxTick a d =>
    cases done
    simp [muxTick_eq, Regs.memRead]
  | secTick d =>
    cases done
    simp [secTick_eq, Regs.memRead]
  | recompute =>
    cases done
    simp [recompute_eq]
  | idle =>
    cases done
    simp
  | _ => cases req

end Sys2Proof.Machine

/-! SUPPORT. Runs of edges and the synchronizer: its invariant, the balance of captures and services, and the latency of a tick
(`60_exceptions.md` R104 to R106, R123). -/

namespace Sys2Proof.Machine

/-! ### The invariant of the synchronizer -/

/-- A mux tick pending after an unreset edge was captured there, so its chain holds a level already seen (R106). -/
theorem muxS3_of_edge_pendMux (c : Config) {x : Sample} {b : Block} (h : x.rst = false)
    (mux : (b.edge c x).regs.pendMux = true) : (b.edge c x).sync.muxS3 = true := by
  rw [edge_pendMux c b h, em_eq_true_iff] at mux
  rw [edge_sync c b h]
  exact mux.1

/-- A chain that holds a level already seen detects no mux pulse. -/
theorem em_of_muxS3 {y : Sync} (h : y.muxS3 = true) : y.em = false := by
  rw [Sync.em, h, Bool.not_true, Bool.and_false]

/-- The same for the seconds chain. -/
theorem es_of_secS3 {y : Sync} (h : y.secS3 = true) : y.es = false := by
  rw [Sync.es, h, Bool.not_true, Bool.and_false]

/-- With no mux tick pending the invariant holds. -/
theorem syncInv_of_no_mux {b : Block} (h : b.regs.pendMux = false) : SyncInv b := by
  simp [SyncInv, h]

/-- Where a seconds tick waits behind a mux tick, neither chain detects a pulse (R106). -/
theorem SyncInv.no_captures {b : Block} (inv : SyncInv b) (waits : (b.regs.pendSec && b.regs.pendMux) = true) :
    b.sync.em = false ∧ b.sync.es = false := by
  obtain ⟨sec, mux⟩ := Bool.and_eq_true_iff.mp waits
  exact ⟨em_of_muxS3 (inv.1 mux), es_of_secS3 (inv.2 mux sec)⟩

/-- Every edge keeps the invariant. -/
theorem syncInv_edge (c : Config) (x : Sample) {b : Block} (inv : SyncInv b) : SyncInv (b.edge c x) := by
  cases h : x.rst with
  | true =>
    rw [edge_of_rst c b h]
    exact syncInv_of_no_mux rfl
  | false =>
    refine ⟨muxS3_of_edge_pendMux c h, fun mux sec => ?_⟩
    rw [edge_pendMux c b h] at mux
    rw [edge_pendSec c b h, Bool.or_eq_true] at sec
    obtain captured | waits := sec
    · rw [edge_sync c b h]
      exact ((es_eq_true_iff b.sync).mp captured).1
    · rw [(inv.no_captures waits).1] at mux
      cases mux

/-! ### Captures and services -/

/-- Where every unreset edge balances two tests against a quantity of the block, so does every unreset run. -/
theorem countEdges_balance {c : Config} {p q : Sample → Block → Bool} {quantity : Block → Nat}
    (edge : ∀ (x : Sample) (b : Block), SyncInv b → x.rst = false →
      (p x b).toNat + quantity b = (q x b).toNat + quantity (b.edge c x))
    {xs : List Sample} {b : Block} (inv : SyncInv b) (unreset : NoReset xs) :
    Block.countEdges c p xs b + quantity b = Block.countEdges c q xs b + quantity (Block.run c xs b) := by
  induction xs generalizing b with
  | nil => rfl
  | cons x xs ih =>
    obtain ⟨hx, hxs⟩ := List.forall_mem_cons.mp unreset
    have now := edge x b inv hx
    have rest := ih (syncInv_edge c x inv) hxs
    simp only [Block.countEdges, Block.run]
    omega

/-- A mux flag is a capture not yet served: an edge serves it and captures anew. -/
theorem edge_balance_mux (c : Config) (x : Sample) (b : Block) (h : x.rst = false) :
    b.sync.em.toNat + b.regs.pendMux.toNat = b.regs.pendMux.toNat + (b.edge c x).regs.pendMux.toNat := by
  rw [edge_pendMux c b h, add_comm]

/-- The same for the seconds flag, which may wait behind a mux tick. -/
theorem edge_balance_sec (c : Config) (x : Sample) (b : Block) (inv : SyncInv b) (h : x.rst = false) :
    b.sync.es.toNat + b.regs.pendSec.toNat =
      (!b.regs.pendMux && b.regs.pendSec).toNat + (b.edge c x).regs.pendSec.toNat := by
  rw [edge_pendSec c b h]
  have noCapture := inv.no_captures
  cases mux : b.regs.pendMux with
  | false => simp [add_comm]
  | true =>
    cases sec : b.regs.pendSec with
    | false => simp
    | true =>
      obtain ⟨-, es⟩ := noCapture (by rw [mux, sec]; rfl)
      rw [es]
      rfl

/-- The balance of the mux ticks over a run. -/
theorem countEdges_mux (c : Config) {xs : List Sample} {b : Block} (inv : SyncInv b) (unreset : NoReset xs) :
    Block.countEdges c (fun _ b => b.sync.em) xs b + b.regs.pendMux.toNat =
      Block.countEdges c (fun _ b => b.regs.pendMux) xs b + (Block.run c xs b).regs.pendMux.toNat :=
  countEdges_balance (quantity := fun b => b.regs.pendMux.toNat) (fun x b _ => edge_balance_mux c x b) inv unreset

/-- The balance of the seconds ticks over a run. -/
theorem countEdges_sec (c : Config) {xs : List Sample} {b : Block} (inv : SyncInv b) (unreset : NoReset xs) :
    Block.countEdges c (fun _ b => b.sync.es) xs b + b.regs.pendSec.toNat =
      Block.countEdges c (fun _ b => !b.regs.pendMux && b.regs.pendSec) xs b +
        (Block.run c xs b).regs.pendSec.toNat :=
  countEdges_balance (quantity := fun b => b.regs.pendSec.toNat) (edge_balance_sec c) inv unreset

/-! ### Latency -/

/-- The token of an unreset edge with a mux tick pending. -/
theorem edgeToken_of_mux {x : Sample} {b : Block} (h : x.rst = false) (mux : b.regs.pendMux = true) :
    b.edgeToken x = .m b.sync.btnS2 := by
  rw [Block.edgeToken, if_neg (by simp [h]), if_pos mux]

/-- The token of an unreset edge with only a seconds tick before the recompute. -/
theorem edgeToken_of_sec {x : Sample} {b : Block} (h : x.rst = false) (noMux : b.regs.pendMux = false)
    (sec : b.regs.pendSec = true) : b.edgeToken x = .s := by
  rw [Block.edgeToken, if_neg (by simp [h]), if_neg (by simp [noMux]), if_pos sec]

/-- The token of an unreset edge with only a recompute requested. -/
theorem edgeToken_of_dirty {x : Sample} {b : Block} (h : x.rst = false) (noMux : b.regs.pendMux = false)
    (noSec : b.regs.pendSec = false) (dirty : b.regs.dirty = true) : b.edgeToken x = .r := by
  rw [Block.edgeToken, if_neg (by simp [h]), if_neg (by simp [noMux]), if_neg (by simp [noSec]), if_pos dirty]

/-- A pending seconds tick is served at the coming edge, or at the next one behind a MUX_TICK (R123). -/
theorem sec_served_within_two (c : Config) {b : Block} {x y : Sample} (hx : x.rst = false) (hy : y.rst = false)
    (seen : b.regs.pendMux = true → b.sync.muxS3 = true) (sec : b.regs.pendSec = true) :
    b.edgeToken x = .s ∨ ((∃ v, b.edgeToken x = .m v) ∧ (b.edge c x).edgeToken y = .s) := by
  cases mux : b.regs.pendMux with
  | false => exact .inl (edgeToken_of_sec hx mux sec)
  | true =>
    refine .inr ⟨⟨_, edgeToken_of_mux hx mux⟩, edgeToken_of_sec hy ?_ ?_⟩
    · rw [edge_pendMux c b hx, em_of_muxS3 (seen mux)]
    · rw [edge_pendSec c b hx, sec, mux, Bool.and_self, Bool.or_true]

/-- What holds of a list of edges holds of its first three and of the others. -/
theorem forall_three_cons {P : Sample → Prop} {x0 x1 x2 : Sample} {ys : List Sample} :
    (∀ x ∈ x0 :: x1 :: x2 :: ys, P x) ↔ (∀ x ∈ [x0, x1, x2], P x) ∧ ∀ x ∈ ys, P x :=
  List.forall_mem_append (l₁ := [x0, x1, x2])

/-- Three unreset edges, one by one. -/
theorem noReset_three {x0 x1 x2 : Sample} :
    NoReset [x0, x1, x2] ↔ x0.rst = false ∧ x1.rst = false ∧ x2.rst = false := by
  simp [NoReset]

/-- Three unreset edges fill the tick chains with the levels sampled at them (R100, R103). -/
theorem sync_run_three (c : Config) (b : Block) {x0 x1 x2 : Sample} (unreset : NoReset [x0, x1, x2]) :
    (Block.run c [x0, x1, x2] b).sync =
      { muxS1 := x2.tm, muxS2 := x1.tm, muxS3 := x0.tm, secS1 := x2.ts, secS2 := x1.ts, secS3 := x0.ts,
        btnS1 := x2.bn, btnS2 := x1.bn } := by
  obtain ⟨h0, h1, h2⟩ := noReset_three.mp unreset
  simp only [Block.run, edge_sync c _ h0, edge_sync c _ h1, edge_sync c _ h2]

/-- A mux pulse sampled low, then high, is pending after three edges (R123). -/
theorem run_three_pendMux (c : Config) {b : Block} {x0 x1 x2 : Sample} (unreset : NoReset [x0, x1, x2])
    (low : b.sync.muxS1 = false) (high : x0.tm = true) : (Block.run c [x0, x1, x2] b).regs.pendMux = true := by
  obtain ⟨h0, h1, h2⟩ := noReset_three.mp unreset
  simp [Block.run, edge_pendMux c _ h2, edge_sync c _ h0, edge_sync c _ h1, low, high, Sync.em]

/-- A seconds pulse sampled low, then high, is pending after three edges (R123). -/
theorem run_three_pendSec (c : Config) {b : Block} {x0 x1 x2 : Sample} (unreset : NoReset [x0, x1, x2])
    (low : b.sync.secS1 = false) (high : x0.ts = true) : (Block.run c [x0, x1, x2] b).regs.pendSec = true := by
  obtain ⟨h0, h1, h2⟩ := noReset_three.mp unreset
  simp [Block.run, edge_pendSec c _ h2, edge_sync c _ h0, edge_sync c _ h1, low, high, Sync.es]

end Sys2Proof.Machine

/-! SUPPORT. The statements of `60_exceptions.md` on overrun and latency, settled. -/

namespace Sys2Proof.Machine

/-- Settles O46: at reset nothing is pending, and an edge that leaves a tick pending has just captured it (R106). -/
theorem syncInvariantKept : Obligations.SyncInvariantKept := by
  refine ⟨syncInv_of_no_mux rfl, fun s t inv next => ?_⟩
  rw [block_of_step next]
  exact syncInv_edge Config.cfg s.sample inv

/-- Settles O47: the balance of captures and services, edge by edge (R106). -/
theorem noTickIsLostOrMerged : Obligations.NoTickIsLostOrMerged :=
  fun c _ _ inv unreset => ⟨countEdges_mux c inv unreset, countEdges_sec c inv unreset⟩

/-- Settles O48: the chain is three edges long, and a seconds tick waits for one MUX_TICK at most (R123). -/
theorem capturedTickIsServedThreeEdgesLater : Obligations.CapturedTickIsServedThreeEdgesLater := by
  intro c b x0 x1 x2 x3 x4 unreset
  obtain ⟨unreset, h3, h4⟩ : NoReset [x0, x1, x2] ∧ x3.rst = false ∧ x4.rst = false := by
    simpa [NoReset, and_assoc] using unreset
  refine ⟨fun low high => ?_, fun low high => ?_⟩
  · have pending := run_three_pendMux c unreset low high
    exact ⟨pending, by rw [edgeToken_of_mux h3 pending, sync_run_three c b unreset]⟩
  · have seen := muxS3_of_edge_pendMux c (b := Block.run c [x0, x1] b) (unreset x2 (by simp))
    exact sec_served_within_two c h3 h4 seen (run_three_pendSec c unreset low high)

end Sys2Proof.Machine

/-! SUPPORT. Progress at the cycle level: a requested recompute waits for tick services only, services are balanced by captures, and
spaced rises allow few captures (`60_exceptions.md` section 6; `70_reset_and_hazards.md` R134, R139; log entry 22). -/

namespace Sys2Proof.Machine

/-! ### Rises and captures -/

/-- The rises of a line from position `k` lie below its last position. -/
theorem lt_of_mem_risesFrom {k i : Nat} {line : List Bool} (h : i ∈ risesFrom k line) : i + 1 < k + line.length := by
  induction line generalizing k with
  | nil => cases h
  | cons a rest ih =>
    cases rest with
    | nil => cases h
    | cons b rest =>
      rw [risesFrom, List.mem_append] at h
      obtain here | later := h
      · have eq : i = k := by
          split at here
          · exact List.mem_singleton.mp here
          · cases here
        simp only [List.length_cons]
        omega
      · have bound := ih later
        simp only [List.length_cons] at *
        omega

/-- Of positions seven apart, at most two lie in a stretch of fourteen. -/
theorem length_le_two_of_spaced {is : List Nat} (spaced : is.Pairwise fun i j => i + 7 ≤ j) (below : ∀ i ∈ is, i < 14) :
    is.length ≤ 2 := by
  match is with
  | [] => decide
  | [_] => exact one_le_two
  | [_, _] => exact le_refl 2
  | i :: j :: l :: is =>
    have l_below := below l (by simp)
    have ij := List.rel_of_pairwise_cons spaced (List.mem_cons_self (a := j))
    have jl := List.rel_of_pairwise_cons (List.Pairwise.of_cons spaced) (List.mem_cons_self (a := l))
    omega

/-- A line of spaced rises, fifteen levels long at most, rises twice at most. -/
theorem risesFrom_length_le {line : List Bool} (spaced : RisesSpaced line) (short : line.length ≤ 15) :
    (risesFrom 0 line).length ≤ 2 := by
  refine length_le_two_of_spaced spaced fun i hi => ?_
  have bound := lt_of_mem_risesFrom hi
  omega

/-- The mux chain and the coming levels: the coming edge's pulse, then the line after that edge. -/
theorem risesFrom_muxLine_cons (c : Config) (k : Nat) {x : Sample} (xs : List Sample) (b : Block) (h : x.rst = false) :
    risesFrom k (b.muxLine (x :: xs)) =
      (if b.sync.em then [k] else []) ++ risesFrom (k + 1) ((b.edge c x).muxLine xs) := by
  simp [Block.muxLine, risesFrom, edge_sync c b h, Sync.em, and_comm]

/-- The same for the seconds chain. -/
theorem risesFrom_secLine_cons (c : Config) (k : Nat) {x : Sample} (xs : List Sample) (b : Block) (h : x.rst = false) :
    risesFrom k (b.secLine (x :: xs)) =
      (if b.sync.es then [k] else []) ++ risesFrom (k + 1) ((b.edge c x).secLine xs) := by
  simp [Block.secLine, risesFrom, edge_sync c b h, Sync.es, and_comm]

/-- A test that holds only at the rises of a line counts no more edges than the line has rises. -/
theorem countEdges_le_rises {c : Config} {p : Block → Bool} {line : Block → List Sample → List Bool}
    (cons : ∀ (k : Nat) (x : Sample) (xs : List Sample) (b : Block), x.rst = false →
      risesFrom k (line b (x :: xs)) = (if p b then [k] else []) ++ risesFrom (k + 1) (line (b.edge c x) xs))
    (k : Nat) {xs : List Sample} (b : Block) (unreset : NoReset xs) :
    Block.countEdges c (fun _ b => p b) xs b ≤ (risesFrom k (line b xs)).length := by
  induction xs generalizing b k with
  | nil => exact Nat.zero_le _
  | cons x xs ih =>
    obtain ⟨hx, hxs⟩ := List.forall_mem_cons.mp unreset
    have rest := ih (k + 1) (b.edge c x) hxs
    rw [cons k x xs b hx, List.length_append, Block.countEdges]
    cases p b <;> simp <;> omega

/-- Captures of the mux tick over a run are rises of its line. -/
theorem countEdges_em_le (c : Config) {xs : List Sample} (b : Block) (unreset : NoReset xs) :
    Block.countEdges c (fun _ b => b.sync.em) xs b ≤ (risesFrom 0 (b.muxLine xs)).length :=
  countEdges_le_rises (p := fun b => b.sync.em) (fun k _ xs b h => risesFrom_muxLine_cons c k xs b h) 0 b unreset

/-- Captures of the seconds tick over a run are rises of its line. -/
theorem countEdges_es_le (c : Config) {xs : List Sample} (b : Block) (unreset : NoReset xs) :
    Block.countEdges c (fun _ b => b.sync.es) xs b ≤ (risesFrom 0 (b.secLine xs)).length :=
  countEdges_le_rises (p := fun b => b.sync.es) (fun k _ xs b h => risesFrom_secLine_cons c k xs b h) 0 b unreset

/-- A run of eight edges with spaced rises serves at most three mux ticks: two captured, one pending before. -/
theorem muxServices_le_three (c : Config) {xs : List Sample} {b : Block} (inv : SyncInv b) (unreset : NoReset xs)
    (eight : xs.length = 8) (spaced : RisesSpaced (b.muxLine xs)) :
    Block.countEdges c (fun _ b => b.regs.pendMux) xs b ≤ 3 := by
  have captured := countEdges_em_le c b unreset
  have rises := risesFrom_length_le spaced (by simp [Block.muxLine, eight])
  have balance := countEdges_mux c inv unreset
  have pending := Bool.toNat_le b.regs.pendMux
  omega

/-- The same for the seconds ticks. -/
theorem secServices_le_three (c : Config) {xs : List Sample} {b : Block} (inv : SyncInv b) (unreset : NoReset xs)
    (eight : xs.length = 8) (spaced : RisesSpaced (b.secLine xs)) :
    Block.countEdges c (fun _ b => !b.regs.pendMux && b.regs.pendSec) xs b ≤ 3 := by
  have captured := countEdges_es_le c b unreset
  have rises := risesFrom_length_le spaced (by simp [Block.secLine, eight])
  have balance := countEdges_sec c inv unreset
  have pending := Bool.toNat_le b.regs.pendSec
  omega

/-! ### The recompute waits for ticks only -/

/-- While a tick is served the recompute stays requested. -/
theorem serve_dirty_of_tick (c : Config) (b : Bool) {r : Regs} (dirty : r.dirty = true)
    (tick : r.pendMux = true ∨ r.pendSec = true) : (r.serve c b).dirty = true := by
  obtain ⟨-, served⟩ | ⟨-, -, served⟩ | ⟨noMux, noSec, -⟩ | ⟨noMux, noSec, -⟩ := serve_cases c b r
  · rw [served, muxTick_eq]; exact dirty
  · rw [served, secTick_eq]
  · simp [noMux, noSec] at tick
  · simp [noMux, noSec] at tick

/-- A requested recompute is performed within an unreset run, or every edge of the run serves a tick. -/
theorem recompute_or_all_ticks (c : Config) {xs : List Sample} {b : Block} (unreset : NoReset xs)
    (dirty : b.regs.dirty = true) :
    (∃ k x, xs[k]? = some x ∧ (Block.run c (xs.take k) b).edgeToken x = .r) ∨
      Block.countEdges c (fun _ b => b.regs.pendMux) xs b +
        Block.countEdges c (fun _ b => !b.regs.pendMux && b.regs.pendSec) xs b = xs.length := by
  induction xs generalizing b with
  | nil => exact .inr rfl
  | cons x xs ih =>
    obtain ⟨hx, hxs⟩ := List.forall_mem_cons.mp unreset
    by_cases tick : b.regs.pendMux = true ∨ b.regs.pendSec = true
    · have dirty' : (b.edge c x).regs.dirty = true := by
        rw [edge_regs c b hx]
        exact serve_dirty_of_tick c b.sync.btnS2 dirty tick
      have one : b.regs.pendMux.toNat + (!b.regs.pendMux && b.regs.pendSec).toNat = 1 := by
        revert tick
        cases b.regs.pendMux <;> cases b.regs.pendSec <;> decide
      obtain ⟨k, y, at_k, token⟩ | all := ih hxs dirty'
      · exact .inl ⟨k + 1, y, at_k, token⟩
      · right
        rw [Block.countEdges, Block.countEdges, List.length_cons]
        omega
    · obtain ⟨noMux, noSec⟩ := not_or.mp tick
      rw [Bool.not_eq_true] at noMux noSec
      exact .inl ⟨0, x, rfl, edgeToken_of_dirty hx noMux noSec dirty⟩

end Sys2Proof.Machine

/-! SUPPORT. Progress at the event level: what a service step needs and does to the requests, and runs that are weakly fair
(`60_exceptions.md` R112, R113). -/

namespace Sys2Proof.Machine

/-! ### The steps and the request flags -/

/-- With a mux tick pending the only service enabled is its own. -/
theorem service_of_pendMux {k : Token} {r : Regs} (service : k.isService = true) (enabled : k.enabled r = true)
    (mux : r.pendMux = true) : ∃ b, k = .m b := by
  cases k with
  | m b => exact ⟨b, rfl⟩
  | s | r => simp [Token.enabled, mux] at enabled
  | plusM | plusS | i | rst => cases service

/-- With only a seconds tick before the recompute the only service enabled is its own. -/
theorem service_of_pendSec {k : Token} {r : Regs} (service : k.isService = true) (enabled : k.enabled r = true)
    (noMux : r.pendMux = false) (sec : r.pendSec = true) : k = .s := by
  cases k with
  | s => rfl
  | m b | r => simp [Token.enabled, noMux, sec] at enabled
  | plusM | plusS | i | rst => cases service

/-- Only its service and a reset clear the mux flag. -/
theorem effect_pendMux_kept (c : Config) {k : Token} {r : Regs} (noRst : k ≠ .rst) (unserved : ∀ b, k ≠ .m b)
    (mux : r.pendMux = true) : (k.effect c r).pendMux = true := by
  cases k with
  | plusM => rfl
  | plusS | r | i => exact mux
  | s => rw [Token.effect, secTick_eq]; exact mux
  | m b => exact absurd rfl (unserved b)
  | rst => exact absurd rfl noRst

/-- Only its service and a reset clear the seconds flag. -/
theorem effect_pendSec_kept (c : Config) {k : Token} {r : Regs} (noRst : k ≠ .rst) (unserved : k ≠ .s)
    (sec : r.pendSec = true) : (k.effect c r).pendSec = true := by
  cases k with
  | plusS => rfl
  | plusM | r | i => exact sec
  | m b => rw [Token.effect, muxTick_eq]; exact sec
  | s => exact absurd rfl unserved
  | rst => exact absurd rfl noRst

/-- Only a capture sets the mux flag. -/
theorem effect_no_mux (c : Config) {k : Token} {r : Regs} (noCapture : k ≠ .plusM) (noMux : r.pendMux = false) :
    (k.effect c r).pendMux = false := by
  cases k with
  | plusM => exact absurd rfl noCapture
  | plusS | r | i => exact noMux
  | m b => rw [Token.effect, muxTick_eq]
  | s => rw [Token.effect, secTick_eq]; exact noMux
  | rst => rfl

/-- The services still owed without another capture: a seconds tick brings its recompute. -/
def Regs.owed (r : Regs) : Nat := r.pendMux.toNat + 2 * r.pendSec.toNat + r.dirty.toNat

/-- Without a capture no step adds to what is owed, and a service takes from it. -/
theorem effect_owed (c : Config) {k : Token} {r : Regs} (enabled : k.enabled r = true)
    (quiet : k ≠ .rst ∧ k ≠ .plusM ∧ k ≠ .plusS) : (k.effect c r).owed + k.isService.toNat ≤ r.owed := by
  obtain ⟨noRst, noPlusM, noPlusS⟩ := quiet
  cases k with
  | plusM => exact absurd rfl noPlusM
  | plusS => exact absurd rfl noPlusS
  | rst => exact absurd rfl noRst
  | i => exact le_refl _
  | m b =>
    have mux : r.pendMux = true := enabled
    simp only [Token.effect, muxTick_eq, Regs.owed, mux, Token.isService, Bool.toNat_true, Bool.toNat_false]
    omega
  | s =>
    have sec : r.pendSec = true := (Bool.and_eq_true_iff.mp enabled).2
    simp only [Token.effect, secTick_eq, Regs.owed, sec, Token.isService, Bool.toNat_true, Bool.toNat_false]
    omega
  | r =>
    have dirty : r.dirty = true := (Bool.and_eq_true_iff.mp enabled).2
    simp only [Token.effect, recompute_eq, Regs.owed, dirty, Token.isService, Bool.toNat_true, Bool.toNat_false]
    omega

/-! ### Infinite runs -/

/-- A property that each step from `n` on keeps holds from `n` on. -/
theorem holds_from {P : Regs → Prop} {r : Nat → Regs} {n : Nat} (start : P (r n))
    (step : ∀ j, n ≤ j → P (r j) → P (r (j + 1))) {j : Nat} (h : n ≤ j) : P (r j) :=
  Nat.le_induction (P := fun j _ => P (r j)) start step j h

section

variable {c : Config} {k : Nat → Token} {r : Nat → Regs} {n : Nat}

/-- The step taken is enabled. -/
theorem InfiniteRun.enabled (run : InfiniteRun c k r) (j : Nat) : (k j).enabled (r j) = true :=
  (Token.fire_eq_some.mp (run j)).1

/-- The next registers are the effect of the step taken. -/
theorem InfiniteRun.next (run : InfiniteRun c k r) (j : Nat) : r (j + 1) = (k j).effect c (r j) :=
  (Token.fire_eq_some.mp (run j)).2.symm

/-- A pending mux tick that no reset discards is served: till then it stays pending, and the service that fairness promises is its
own. -/
theorem InfiniteRun.serves_mux (run : InfiniteRun c k r) (fair : WeaklyFair k r) (noRst : ∀ j, n ≤ j → k j ≠ .rst)
    (mux : (r n).pendMux = true) : ∃ j b, n ≤ j ∧ k j = .m b := by
  by_contra unserved
  push Not at unserved
  have pending {j : Nat} (hj : n ≤ j) : (r j).pendMux = true :=
    holds_from (P := fun r => r.pendMux = true) mux
      (fun j hj h => by rw [run.next]; exact effect_pendMux_kept c (noRst j hj) (fun b => unserved j b hj) h) hj
  obtain ⟨j, hj, service⟩ := fair n fun j hj => (r j).req_ne_zero.mpr (.inl (pending hj))
  obtain ⟨b, served⟩ := service_of_pendMux service (run.enabled j) (pending hj)
  exact unserved j b hj served

/-- A pending seconds tick with no mux tick before it and none to come is served. -/
theorem InfiniteRun.serves_sec_alone (run : InfiniteRun c k r) (fair : WeaklyFair k r) (noRst : ∀ j, n ≤ j → k j ≠ .rst)
    (noPlusM : ∀ j, n ≤ j → k j ≠ .plusM) (noMux : (r n).pendMux = false) (sec : (r n).pendSec = true) :
    ∃ j, n ≤ j ∧ k j = .s := by
  by_contra unserved
  push Not at unserved
  have pending {j : Nat} (hj : n ≤ j) : (r j).pendMux = false ∧ (r j).pendSec = true :=
    holds_from (P := fun r => r.pendMux = false ∧ r.pendSec = true) ⟨noMux, sec⟩
      (fun j hj h => by
        rw [run.next]
        exact ⟨effect_no_mux c (noPlusM j hj) h.1, effect_pendSec_kept c (noRst j hj) (unserved j hj) h.2⟩) hj
  obtain ⟨j, hj, service⟩ := fair n fun j hj => (r j).req_ne_zero.mpr (.inr (.inl (pending hj).2))
  obtain ⟨noMux, sec⟩ := pending hj
  exact unserved j hj (service_of_pendSec service (run.enabled j) noMux sec)

/-- A pending seconds tick is served once no more mux ticks are captured: at the latest after the one pending. -/
theorem InfiniteRun.serves_sec (run : InfiniteRun c k r) (fair : WeaklyFair k r) (noRst : ∀ j, n ≤ j → k j ≠ .rst)
    (noPlusM : ∀ j, n ≤ j → k j ≠ .plusM) (sec : (r n).pendSec = true) : ∃ j, n ≤ j ∧ k j = .s := by
  cases mux : (r n).pendMux with
  | false => exact run.serves_sec_alone fair noRst noPlusM mux sec
  | true =>
    by_contra unserved
    push Not at unserved
    obtain ⟨j, b, hj, served⟩ := run.serves_mux fair noRst mux
    have noMux : (r (j + 1)).pendMux = false := by rw [run.next, served, Token.effect, muxTick_eq]
    have sec' : (r (j + 1)).pendSec = true :=
      holds_from (P := fun r => r.pendSec = true) sec
        (fun i hi h => by rw [run.next]; exact effect_pendSec_kept c (noRst i hi) (unserved i hi) h) (by omega)
    obtain ⟨i, hi, served⟩ := run.serves_sec_alone fair (n := j + 1) (fun i hi => noRst i (by omega))
      (fun i hi => noPlusM i (by omega)) noMux sec'
    exact unserved i (by omega) served

/-- Once nothing is captured, every request is served: each service that fairness promises takes from what is owed. -/
theorem InfiniteRun.drains (run : InfiniteRun c k r) (fair : WeaklyFair k r)
    (quiet : ∀ j, n ≤ j → k j ≠ .rst ∧ k j ≠ .plusM ∧ k j ≠ .plusS) : ∃ j, n ≤ j ∧ (r j).req = 0b000 := by
  induction owed : (r n).owed using Nat.strong_induction_on generalizing n with
  | _ m ih =>
    by_contra requested
    push Not at requested
    obtain ⟨j, hj, service⟩ := fair n requested
    have step (i : Nat) (hi : n ≤ i) := run.next i ▸ effect_owed c (run.enabled i) (quiet i hi)
    have before : (r j).owed ≤ m :=
      holds_from (P := fun r => r.owed ≤ m) owed.le (fun i hi h => by have := step i hi; omega) hj
    have after := step j hj
    rw [service, Bool.toNat_true] at after
    obtain ⟨i, hi, done⟩ := ih _ (by omega) (n := j + 1) (fun i hi => quiet i (by omega)) rfl
    exact requested i (by omega) done

end

/-! ### One edge -/

/-- An unreset edge with something requested performs a service. -/
theorem edgeToken_isService {x : Sample} {b : Block} (h : x.rst = false) (requested : b.regs.req ≠ 0b000) :
    (b.edgeToken x).isService = true := by
  cases mux : b.regs.pendMux with
  | true => rw [edgeToken_of_mux h mux]; rfl
  | false =>
    cases sec : b.regs.pendSec with
    | true => rw [edgeToken_of_sec h mux sec]; rfl
    | false =>
      have dirty : b.regs.dirty = true := by simpa [mux, sec] using b.regs.req_ne_zero.mp requested
      rw [edgeToken_of_dirty h mux sec dirty]; rfl

end Sys2Proof.Machine

/-! SUPPORT. The statements on progress (`60_exceptions.md` section 6), settled. -/

namespace Sys2Proof.Machine

/-- Settles O49: eight edges cannot all serve ticks, since six services at most are owed. -/
theorem recomputeWithinEightEdges : Obligations.RecomputeWithinEightEdges := by
  intro c b xs inv unreset eight muxSpaced secSpaced dirty
  obtain performed | allTicks := recompute_or_all_ticks c unreset dirty
  · exact performed
  · have mux := muxServices_le_three c inv unreset eight muxSpaced
    have sec := secServices_le_three c inv unreset eight secSpaced
    omega

/-- Settles O50: the served tokens of an edge, and the fair runs of the event level (R113). -/
theorem requestsAreServed : Obligations.RequestsAreServed := by
  refine ⟨fun c b x0 x1 inv unreset => ?_, fun c k r n run fair noRst => ?_⟩
  · obtain ⟨h0, h1⟩ : x0.rst = false ∧ x1.rst = false := by simpa [NoReset] using unreset
    exact ⟨edgeToken_of_mux h0, fun sec => (sec_served_within_two c h0 h1 inv.1 sec).imp_right And.right,
      edgeToken_isService h0⟩
  · refine ⟨run.serves_mux fair noRst, run.serves_sec fair noRst, fun quiet => run.drains fair fun j hj => ?_⟩
    exact ⟨noRst j hj, quiet j hj⟩

end Sys2Proof.Machine

/-! SUPPORT. A tick line that stays high: one capture, one service, one count (`70_reset_and_hazards.md` R127). -/

namespace Sys2Proof.Machine

/-! ### The value over a run -/

/-- Serving writes the value in a SEC_TICK only. -/
theorem serve_value (c : Config) (b : Bool) (r : Regs) :
    (r.serve c b).value = (nextValue c)^[(!r.pendMux && r.pendSec).toNat] r.value := by
  obtain ⟨mux, served⟩ | ⟨noMux, sec, served⟩ | ⟨noMux, noSec, -, served⟩ | ⟨noMux, noSec, -, served⟩ := serve_cases c b r
  · rw [served, muxTick_eq, mux]; rfl
  · rw [served, secTick_eq, noMux, sec]; rfl
  · rw [served, noMux, noSec]; rfl
  · rw [served, noMux, noSec]; rfl

/-- Over an unreset run the value advances once for each seconds tick served. -/
theorem run_value (c : Config) {xs : List Sample} (b : Block) (unreset : NoReset xs) :
    (Block.run c xs b).regs.value =
      (nextValue c)^[Block.countEdges c (fun _ b => !b.regs.pendMux && b.regs.pendSec) xs b] b.regs.value := by
  induction xs generalizing b with
  | nil => rfl
  | cons x xs ih =>
    obtain ⟨hx, hxs⟩ := List.forall_mem_cons.mp unreset
    rw [Block.run, ih _ hxs, Block.countEdges, add_comm, Function.iterate_add_apply, edge_regs c b hx, serve_value]

/-! ### The first three edges -/

/-- A list of three or more, by its first three. -/
theorem exists_three_cons {xs : List Sample} (h : 3 ≤ xs.length) : ∃ x0 x1 x2 ys, xs = x0 :: x1 :: x2 :: ys := by
  have three : (xs.take 3).length = 3 := by rw [List.length_take, min_eq_left h]
  obtain ⟨x0, x1, x2, eq⟩ := List.length_eq_three.mp three
  exact ⟨x0, x1, x2, xs.drop 3, (List.take_append_drop 3 xs).symm.trans (congrArg (· ++ xs.drop 3) eq)⟩

/-- A test that is false wherever a property holds which the edges keep counts nothing. -/
theorem countEdges_eq_zero {c : Config} {p : Sample → Block → Bool} {I : Block → Prop} {Q : Sample → Prop}
    (isFalse : ∀ x b, I b → p x b = false) (kept : ∀ x b, Q x → I b → I (b.edge c x)) {xs : List Sample} {b : Block}
    (allowed : ∀ x ∈ xs, Q x) (start : I b) : Block.countEdges c p xs b = 0 := by
  induction xs generalizing b with
  | nil => rfl
  | cons x xs ih =>
    obtain ⟨hx, hxs⟩ := List.forall_mem_cons.mp allowed
    rw [Block.countEdges, isFalse x b start, ih hxs (kept x b hx start)]
    rfl

/-! ### The mux line -/

/-- The mux chain has seen its line high three times. -/
def Sync.MuxHigh (y : Sync) : Prop := y.muxS1 = true ∧ y.muxS2 = true ∧ y.muxS3 = true

/-- A high line keeps its chain high. -/
theorem muxHigh_edge (c : Config) {x : Sample} {b : Block} (h : x.rst = false) (high : x.tm = true)
    (chain : b.sync.MuxHigh) : (b.edge c x).sync.MuxHigh := by
  rw [edge_sync c b h]
  exact ⟨high, chain.1, chain.2.1⟩

/-- After three edges with the line high the chain is high. -/
theorem muxHigh_run_three (c : Config) {b : Block} {x0 x1 x2 : Sample} (unreset : NoReset [x0, x1, x2])
    (high : ∀ x ∈ [x0, x1, x2], x.tm = true) : (Block.run c [x0, x1, x2] b).sync.MuxHigh := by
  rw [sync_run_three c b unreset]
  exact ⟨high x2 (by simp), high x1 (by simp), high x0 (by simp)⟩

/-- With the chain high an edge leaves no mux tick pending. -/
theorem edge_no_mux_of_high (c : Config) {x : Sample} {b : Block} (h : x.rst = false) (chain : b.sync.MuxHigh) :
    (b.edge c x).regs.pendMux = false := by
  rw [edge_pendMux c b h, em_of_muxS3 chain.2.2]

/-- With the chain high and nothing pending no mux tick is served. -/
theorem muxServices_of_high (c : Config) {xs : List Sample} {b : Block} (unreset : NoReset xs)
    (high : ∀ x ∈ xs, x.tm = true) (chain : b.sync.MuxHigh) (noMux : b.regs.pendMux = false) :
    Block.countEdges c (fun _ b => b.regs.pendMux) xs b = 0 :=
  countEdges_eq_zero (I := fun b => b.sync.MuxHigh ∧ b.regs.pendMux = false)
    (Q := fun x => x.rst = false ∧ x.tm = true) (fun _ _ h => h.2)
    (fun _ _ hx h => ⟨muxHigh_edge c hx.1 hx.2 h.1, edge_no_mux_of_high c hx.1 h.1⟩)
    (fun x hx => ⟨unreset x hx, high x hx⟩) ⟨chain, noMux⟩

/-- With the chain high a pending mux tick is served once. -/
theorem muxServices_of_high_pending (c : Config) {xs : List Sample} {b : Block} (unreset : NoReset xs)
    (high : ∀ x ∈ xs, x.tm = true) (chain : b.sync.MuxHigh) (mux : b.regs.pendMux = true) (long : 1 ≤ xs.length) :
    Block.countEdges c (fun _ b => b.regs.pendMux) xs b = 1 := by
  obtain ⟨x, xs, rfl⟩ := List.exists_cons_of_length_pos long
  obtain ⟨hx, hxs⟩ := List.forall_mem_cons.mp unreset
  obtain ⟨tx, txs⟩ := List.forall_mem_cons.mp high
  rw [Block.countEdges, mux, muxServices_of_high c hxs txs (muxHigh_edge c hx tx chain) (edge_no_mux_of_high c hx chain)]
  rfl

/-- No mux tick is served at the first three edges after reset. -/
theorem muxServices_after_reset (c : Config) {x0 x1 x2 : Sample} (unreset : NoReset [x0, x1, x2]) (xs : List Sample) :
    Block.countEdges c (fun _ b => b.regs.pendMux) (x0 :: x1 :: x2 :: xs) (Block.reset c) =
      Block.countEdges c (fun _ b => b.regs.pendMux) xs (Block.run c [x0, x1, x2] (Block.reset c)) := by
  obtain ⟨h0, h1, -⟩ := noReset_three.mp unreset
  simp [Block.countEdges, Block.run, edge_pendMux c _ h0, edge_pendMux c _ h1, edge_sync c _ h0, Sync.em, Block.reset,
    Regs.reset, Sync.reset]

/-- A line high for three edges from reset has its mux tick pending (R127). -/
theorem pendMux_after_reset (c : Config) {x0 x1 x2 : Sample} (unreset : NoReset [x0, x1, x2])
    (high : ∀ x ∈ [x0, x1, x2], x.tm = true) : (Block.run c [x0, x1, x2] (Block.reset c)).regs.pendMux = true :=
  run_three_pendMux c unreset rfl (high x0 List.mem_cons_self)

/-- A line high for four edges or more from reset has its mux tick served once (R127). -/
theorem muxServices_line_high (c : Config) {xs : List Sample} (unreset : NoReset xs) (high : ∀ x ∈ xs, x.tm = true)
    (long : 4 ≤ xs.length) : Block.countEdges c (fun _ b => b.regs.pendMux) xs (Block.reset c) = 1 := by
  obtain ⟨x0, x1, x2, ys, rfl⟩ := exists_three_cons (by omega : 3 ≤ xs.length)
  obtain ⟨unreset3, unresetYs⟩ := forall_three_cons.mp unreset
  obtain ⟨high3, highYs⟩ := forall_three_cons.mp high
  rw [muxServices_after_reset c unreset3]
  exact muxServices_of_high_pending c unresetYs highYs (muxHigh_run_three c unreset3 high3)
    (pendMux_after_reset c unreset3 high3) (Nat.le_of_add_le_add_right (b := 3) long)

/-! ### The seconds line -/

/-- The seconds chain has seen its line high three times. -/
def Sync.SecHigh (y : Sync) : Prop := y.secS1 = true ∧ y.secS2 = true ∧ y.secS3 = true

/-- A high line keeps its chain high. -/
theorem secHigh_edge (c : Config) {x : Sample} {b : Block} (h : x.rst = false) (high : x.ts = true)
    (chain : b.sync.SecHigh) : (b.edge c x).sync.SecHigh := by
  rw [edge_sync c b h]
  exact ⟨high, chain.1, chain.2.1⟩

/-- After three edges with the line high the chain is high. -/
theorem secHigh_run_three (c : Config) {b : Block} {x0 x1 x2 : Sample} (unreset : NoReset [x0, x1, x2])
    (high : ∀ x ∈ [x0, x1, x2], x.ts = true) : (Block.run c [x0, x1, x2] b).sync.SecHigh := by
  rw [sync_run_three c b unreset]
  exact ⟨high x2 (by simp), high x1 (by simp), high x0 (by simp)⟩

/-- With the chain high an edge leaves a seconds tick pending only behind a mux tick. -/
theorem edge_pendSec_of_high (c : Config) {x : Sample} {b : Block} (h : x.rst = false) (chain : b.sync.SecHigh) :
    (b.edge c x).regs.pendSec = (b.regs.pendSec && b.regs.pendMux) := by
  rw [edge_pendSec c b h, es_of_secS3 chain.2.2, Bool.false_or]

/-- With the chain high and no seconds tick pending an edge leaves none pending. -/
theorem edge_no_sec_of_high (c : Config) {x : Sample} {b : Block} (h : x.rst = false) (chain : b.sync.SecHigh)
    (noSec : b.regs.pendSec = false) : (b.edge c x).regs.pendSec = false := by
  rw [edge_pendSec_of_high c h chain, noSec, Bool.false_and]

/-- With the chain high and nothing pending no seconds tick is served. -/
theorem secServices_of_high (c : Config) {xs : List Sample} {b : Block} (unreset : NoReset xs)
    (high : ∀ x ∈ xs, x.ts = true) (chain : b.sync.SecHigh) (noSec : b.regs.pendSec = false) :
    Block.countEdges c (fun _ b => !b.regs.pendMux && b.regs.pendSec) xs b = 0 :=
  countEdges_eq_zero (I := fun b => b.sync.SecHigh ∧ b.regs.pendSec = false)
    (Q := fun x => x.rst = false ∧ x.ts = true) (fun _ _ h => by rw [h.2, Bool.and_false])
    (fun _ _ hx h => ⟨secHigh_edge c hx.1 hx.2 h.1, edge_no_sec_of_high c hx.1 h.1 h.2⟩)
    (fun x hx => ⟨unreset x hx, high x hx⟩) ⟨chain, noSec⟩

/-- With the chain high a seconds tick pending alone is served once, at the coming edge. -/
theorem secServices_of_high_alone (c : Config) {xs : List Sample} {b : Block} (unreset : NoReset xs)
    (high : ∀ x ∈ xs, x.ts = true) (chain : b.sync.SecHigh) (sec : b.regs.pendSec = true) (noMux : b.regs.pendMux = false)
    (long : 1 ≤ xs.length) : Block.countEdges c (fun _ b => !b.regs.pendMux && b.regs.pendSec) xs b = 1 := by
  obtain ⟨x, xs, rfl⟩ := List.exists_cons_of_length_pos long
  obtain ⟨hx, hxs⟩ := List.forall_mem_cons.mp unreset
  obtain ⟨tx, txs⟩ := List.forall_mem_cons.mp high
  have noSec : (b.edge c x).regs.pendSec = false := by rw [edge_pendSec_of_high c hx chain, noMux, Bool.and_false]
  rw [Block.countEdges, sec, noMux, secServices_of_high c hxs txs (secHigh_edge c hx tx chain) noSec]
  rfl

/-- With the chain high a pending seconds tick is served once, behind a mux tick at the second edge. -/
theorem secServices_of_high_pending (c : Config) {xs : List Sample} {b : Block} (unreset : NoReset xs)
    (high : ∀ x ∈ xs, x.ts = true) (chain : b.sync.SecHigh) (sec : b.regs.pendSec = true)
    (seen : b.regs.pendMux = true → b.sync.muxS3 = true) (long : 2 ≤ xs.length) :
    Block.countEdges c (fun _ b => !b.regs.pendMux && b.regs.pendSec) xs b = 1 := by
  cases mux : b.regs.pendMux with
  | false => exact secServices_of_high_alone c unreset high chain sec mux (by omega)
  | true =>
    obtain ⟨x, xs, rfl⟩ := List.exists_cons_of_length_pos (by omega : 0 < xs.length)
    obtain ⟨hx, hxs⟩ := List.forall_mem_cons.mp unreset
    obtain ⟨tx, txs⟩ := List.forall_mem_cons.mp high
    have sec' : (b.edge c x).regs.pendSec = true := by rw [edge_pendSec_of_high c hx chain, sec, mux]; rfl
    have noMux : (b.edge c x).regs.pendMux = false := by rw [edge_pendMux c b hx, em_of_muxS3 (seen mux)]
    rw [List.length_cons] at long
    rw [Block.countEdges, mux, secServices_of_high_alone c hxs txs (secHigh_edge c hx tx chain) sec' noMux (by omega)]
    rfl

/-- No seconds tick is served at the first three edges after reset. -/
theorem secServices_after_reset (c : Config) {x0 x1 x2 : Sample} (unreset : NoReset [x0, x1, x2]) (xs : List Sample) :
    Block.countEdges c (fun _ b => !b.regs.pendMux && b.regs.pendSec) (x0 :: x1 :: x2 :: xs) (Block.reset c) =
      Block.countEdges c (fun _ b => !b.regs.pendMux && b.regs.pendSec) xs
        (Block.run c [x0, x1, x2] (Block.reset c)) := by
  obtain ⟨h0, h1, -⟩ := noReset_three.mp unreset
  simp [Block.countEdges, Block.run, edge_pendSec c _ h0, edge_pendSec c _ h1, edge_sync c _ h0, Sync.es, Block.reset,
    Regs.reset, Sync.reset]

/-- A line high for three edges from reset has its seconds tick pending (R127). -/
theorem pendSec_after_reset (c : Config) {x0 x1 x2 : Sample} (unreset : NoReset [x0, x1, x2])
    (high : ∀ x ∈ [x0, x1, x2], x.ts = true) : (Block.run c [x0, x1, x2] (Block.reset c)).regs.pendSec = true :=
  run_three_pendSec c unreset rfl (high x0 List.mem_cons_self)

/-- A line high for five edges or more from reset has its seconds tick served once (R127). -/
theorem secServices_line_high (c : Config) {xs : List Sample} (unreset : NoReset xs) (high : ∀ x ∈ xs, x.ts = true)
    (long : 5 ≤ xs.length) :
    Block.countEdges c (fun _ b => !b.regs.pendMux && b.regs.pendSec) xs (Block.reset c) = 1 := by
  obtain ⟨x0, x1, x2, ys, rfl⟩ := exists_three_cons (by omega : 3 ≤ xs.length)
  obtain ⟨unreset3, unresetYs⟩ := forall_three_cons.mp unreset
  obtain ⟨high3, highYs⟩ := forall_three_cons.mp high
  rw [secServices_after_reset c unreset3]
  exact secServices_of_high_pending c unresetYs highYs (secHigh_run_three c unreset3 high3)
    (pendSec_after_reset c unreset3 high3) (muxS3_of_edge_pendMux c (unreset3 x2 (by simp)))
    (Nat.le_of_add_le_add_right (b := 3) long)

/-- The same for four edges, where no mux tick is pending after the third. -/
theorem secServices_line_high_alone (c : Config) {x0 x1 x2 : Sample} {ys : List Sample}
    (unreset : NoReset (x0 :: x1 :: x2 :: ys)) (high : ∀ x ∈ x0 :: x1 :: x2 :: ys, x.ts = true)
    (noMux : (Block.run c [x0, x1, x2] (Block.reset c)).regs.pendMux = false) (long : 1 ≤ ys.length) :
    Block.countEdges c (fun _ b => !b.regs.pendMux && b.regs.pendSec) (x0 :: x1 :: x2 :: ys) (Block.reset c) = 1 := by
  obtain ⟨unreset3, unresetYs⟩ := forall_three_cons.mp unreset
  obtain ⟨high3, highYs⟩ := forall_three_cons.mp high
  rw [secServices_after_reset c unreset3]
  exact secServices_of_high_alone c unresetYs highYs (secHigh_run_three c unreset3 high3)
    (pendSec_after_reset c unreset3 high3) noMux long

/-- What holds of a list holds of its first part. -/
theorem forall_mem_take {P : Sample → Prop} {xs : List Sample} (h : ∀ x ∈ xs, P x) (n : Nat) : ∀ x ∈ xs.take n, P x :=
  fun x hx => h x (List.mem_of_mem_take hx)

end Sys2Proof.Machine

/-! SUPPORT. The statement of `70_reset_and_hazards.md` on a line high at reset release, settled. -/

namespace Sys2Proof.Machine

/-- Settles O51: three edges fill the chain and set the flag; then the tick is served once, and the value counts the services. -/
theorem lineHighAtResetReleaseCountsOnce : Obligations.LineHighAtResetReleaseCountsOnce := by
  refine ⟨fun c xs unreset high long => ?_, fun c xs unreset high long => ?_⟩
  · have four : 4 ≤ (xs.take 4).length := by rw [List.length_take, min_eq_left long]
    refine ⟨?_, muxServices_line_high c (forall_mem_take unreset 4) (forall_mem_take high 4) four,
      muxServices_line_high c unreset high long⟩
    obtain ⟨x0, x1, x2, ys, rfl⟩ := exists_three_cons (by omega : 3 ≤ xs.length)
    exact pendMux_after_reset c (forall_mem_take unreset 3) (forall_mem_take high 3)
  · have five : 5 ≤ (xs.take 5).length := by rw [List.length_take, min_eq_left long]
    have once := secServices_line_high c unreset high long
    have advanced : (Block.run c xs (Block.reset c)).regs.value = ((Regs.reset c).secTick c).value := by
      rw [run_value c _ unreset, once, secTick_eq]
      rfl
    have onceInFive := secServices_line_high c (forall_mem_take unreset 5) (forall_mem_take high 5) five
    refine ⟨?_, fun noMux => ?_, onceInFive, once, advanced⟩
    all_goals obtain ⟨x0, x1, x2, ys, rfl⟩ := exists_three_cons (by omega : 3 ≤ xs.length)
    · exact pendSec_after_reset c (forall_mem_take unreset 3) (forall_mem_take high 3)
    · have one : 1 ≤ (ys.take 1).length := by
        simp only [List.length_cons, List.length_take] at *
        omega
      exact secServices_line_high_alone c (forall_mem_take unreset 4) (forall_mem_take high 4) noMux one

end Sys2Proof.Machine
